-- ==== Sys2Proof/Word.lean ====
section
/-! DEFINITION. The two widths of every datum the core holds or moves (00_scope.md R3). Arithmetic on them wraps,
as R3 and R4 ask. Everything else about bits stands in Machine/Bits.lean. -/

namespace Sys2Proof

/-- A byte: the registers A to L, the alternates, memory bytes, port bytes (R3). -/
abbrev Byte := BitVec 8

/-- A word: PC, SP, IX, IY, the pair views, memory addresses and port numbers (R3, R4). -/
abbrev Word := BitVec 16

end Sys2Proof
end

