-- ==== Sys2Proof/Machine/Registers.lean ====
section
/-! DEFINITION. The register groups State is made of: the flags, the alternate bank, and INIT_REGS, the register
values a core is constructed with (10_state.md R15 to R17, R24). -/

namespace Sys2Proof.Machine

/-- The flags, each a boolean (R15, R16). `f3`, `f5` and `fN` exist in EXT only and stay false in BASE (D37). -/
structure Flags where
  fS : Bool
  fZ : Bool
  fH : Bool
  fP : Bool
  fC : Bool
  f3 : Bool
  f5 : Bool
  fN : Bool
  deriving DecidableEq, Repr

/-- The alternate bank A', F', B' to L'; F' is a stored byte (R17, D30). -/
structure AltBank where
  a : Byte
  f : Byte
  b : Byte
  c : Byte
  d : Byte
  e : Byte
  h : Byte
  l : Byte
  deriving DecidableEq, Repr

/-- INIT_REGS: every register and flag value at construction but PC and ticks (R24, D6). -/
structure InitRegs where
  a : Byte
  b : Byte
  c : Byte
  d : Byte
  e : Byte
  h : Byte
  l : Byte
  sp : Word
  flags : Flags
  alt : AltBank
  ix : Word
  iy : Word
  iReg : Byte
  rReg : Byte
  iff1 : Bool
  iff2 : Bool
  deriving DecidableEq, Repr

end Sys2Proof.Machine
end

