-- ==== Sys2Proof/Config.lean ====
section
/-! DEFINITION. The construction parameters of 00_scope.md R5, which no step changes, and the free values the spec
leaves OPEN. The parameters travel in State's field `cfg`, because the step takes a state alone (log entry 1). -/

namespace Sys2Proof

open Machine (Flags)

/-- The two instruction sets, chosen once when the core is built (R2). -/
inductive Mode where
  /-- The Intel 8080 instruction set. -/
  | base
  /-- The partial Z80. -/
  | ext
  deriving DecidableEq, Repr

/-- What a CPU write in the peripheral window that is no control write does (R34). -/
inductive WindowDataWrite where
  | discard
  | store
  | storeReplicated
  deriving DecidableEq, Repr

/-- How IN and OUT form the 16-bit port number from the operand byte and A (R37, D16). -/
inductive PortAddressing where
  /-- The operand byte, zero-extended: the decided value. -/
  | zeroExtended
  /-- A in the high byte: the alternative D16 names. -/
  | accumulatorHigh
  /-- Function number `k` of the operand byte and A: the port number is a free value (log entry 14). -/
  | other (k : Nat)
  deriving DecidableEq, Repr

/-- The four bytes a control word makes the window show, at offsets 0 to 3 (R33). -/
structure Pattern where
  p0 : Byte
  p1 : Byte
  p2 : Byte
  p3 : Byte
  deriving DecidableEq, Repr

/-- A tick table, 16 rows of 16 cells as R201 and R202 lay it out: for each opcode what it costs taken and not taken. The
cell of an instruction that is no conditional transfer has one number, which it pays as taken (log entry
8). -/
abbrev TickTable := Vector (Vector (Nat × Nat) 16) 16

/-- EXT_FLAG_RULES, the name of a set of EXT flag rules (D12, D13; log entry 8). -/
inductive ExtFlagRules where
  /-- The Z80 rules of 41_alu_flag_engine.md: the decided value. -/
  | z80
  /-- Set number `k`: what the source leaves open of the EXT flags is a free value (log entry 13). -/
  | other (k : Nat)
  deriving DecidableEq, Repr

/-- The flag rules the ALU follows: BASE's, or EXT's under a set. -/
inductive FlagRules where
  | base
  | ext (x : ExtFlagRules)
  deriving DecidableEq, Repr

/-- The parameters of R5 that the machine's behaviour reads. -/
structure Params where
  mode : Mode
  romBoundary : Word
  windowLo : Word
  windowHi : Word
  /-- PPI_CONTROL as a finite table; a byte it does not list is no control word (R33, D18). -/
  ppiControl : List (Byte × Pattern)
  windowDataWrite : WindowDataWrite
  portAddressing : PortAddressing
  ticksBase : TickTable
  ticksExt : TickTable
  prefixTicks : Nat
  haltAdvancesPc : Bool
  extFlagRules : ExtFlagRules
  deriving DecidableEq, Repr

/-- The flag rules of the configured mode (R98). -/
def Params.flagRules (p : Params) : FlagRules :=
  match p.mode with
  | .base => .base
  | .ext => .ext p.extFlagRules

/-- An operation of the ALU with its operands: what the flags the source leaves open may depend on, beside the flags
before it. -/
inductive AluOp where
  | add (a b : Byte) (cin : Bool)
  | sub (a b : Byte) (bin : Bool)
  | cmp (a b : Byte)
  | inc (x : Byte)
  | dec (x : Byte)
  | and (a b : Byte)
  | xor (a b : Byte)
  | or (a b : Byte)
  | rlc (a : Byte)
  | rrc (a : Byte)
  | ral (a : Byte)
  | rar (a : Byte)
  | cma (a : Byte)
  | cmc (a : Byte)
  | stc (a : Byte)
  | add16 (hl x : Word)
  | daa (a : Byte)
  deriving DecidableEq, Repr

/-- The flags that EXT_FLAG_RULES decides: H, N, f3, f5 and the overflow formula (D12). -/
structure ExtDetails where
  fH : Bool
  fP : Bool
  f3 : Bool
  f5 : Bool
  fN : Bool
  deriving DecidableEq, Repr, Inhabited

/-- FREE VALUE. The flags that set `k` of EXT flag rules gives an operation on the flags before it (D12, log entry 13). -/
opaque Config.extDetails : Nat → AluOp → Flags → ExtDetails

/-- FREE VALUE. The A that set `k` of EXT flag rules gives a decimal adjust after a subtraction (D13, log entry 13). -/
opaque Config.extDaa : Nat → Flags → Byte → Byte

/-- FREE VALUE. What the host answers to the `n`-th port read that no listed answer serves, at port `p`: PORT_READ is
OPEN (R36, D17, log entry 5). It has no body, so nothing can be proved of its value. -/
opaque Config.portAnswer : Nat → Word → Byte

/-- FREE VALUE. The port number that function `k` presents for the operand byte and A (R5, R37, log entry 14). -/
opaque Config.portAddress : Nat → Byte → Byte → Word

/-- FREE VALUE. The PPI_CONTROL table of the core that State.reset constructs: OPEN (R33, D18, log entry 6). -/
opaque Config.ppiControlTable : List (Byte × Pattern)

end Sys2Proof
end

