-- ==== Sys2Proof/Machine/Bits.lean ====
section
/-! DEFINITION. The byte and bit helpers of the notation section of 00_scope.md: `hi:lo`, `v[i]`, and the halves of a
word, in the one place that decides which byte of a word is which. -/

namespace Sys2Proof.Machine

/-- `hi:lo`, the word `hi * 256 + lo` (R9). -/
def wordOf (hi lo : Byte) : Word := hi ++ lo

/-- `w div 256`, the byte a pair's high register gets (R10). -/
def hiByte (w : Word) : Byte := w.extractLsb' 8 8

/-- `w mod 256`, the byte a pair's low register gets (R10). -/
def loByte (w : Word) : Byte := w.extractLsb' 0 8

/-- `v[k]` of a byte. -/
def bitOf (v : Byte) (k : Nat) : Bool := v.getLsbD k

/-- A flag as the bit 0 of a byte. -/
def bitByte (b : Bool) : Byte := if b then 1 else 0

/-- The signed reading of a displacement byte: 128 to 255 stand for -128 to -1 (R95). -/
def sdisp (d : Byte) : Int := if d.toNat < 128 then (d.toNat : Int) else (d.toNat : Int) - 256

end Sys2Proof.Machine
end

