-- ==== Sys2Proof/Machine/Flags.lean ====
section
/-! DEFINITION. The ALU and flag engine (41_alu_flag_engine.md): pure functions of the operands, the flags and the flag
rules of the mode (R98). Each gives the result and the flags after it; a flag it does not write is the one it was given. -/

namespace Sys2Proof.Machine

/-! ## Tables -/

/-- How many bits of a byte are set. -/
def popcount (x : Byte) : Nat := (List.range 8).countP (fun k => bitOf x k)

/-- PARITY: an even number of set bits (R75). -/
def parity (x : Byte) : Bool := popcount x % 2 == 0

/-- The half-carry index, as the source computes it from bit 3 of both operands and the result (R76). -/
def hcIndex (a b r : Byte) : Nat :=
  ((((a &&& 0x88) >>> 1) ||| ((b &&& 0x88) >>> 2) ||| ((r &&& 0x88) >>> 3)) &&& 7).toNat

/-- ADD_HC (R77). -/
def addHc (idx : Nat) : Bool := [false, false, true, false, true, false, true, true].getD idx false

/-- SUB_HB (R78). -/
def subHb (idx : Nat) : Bool := [false, true, true, true, false, false, false, true].getD idx false

/-! ## EXT_FLAG_RULES -/

/-- The EXT flags of an operation under a set of flag rules: the Z80's, or free values (D12). -/
def extDetails (x : ExtFlagRules) (op : AluOp) (f : Flags) (z80 : ExtDetails) : ExtDetails :=
  match x with
  | .z80 => z80
  | .other k => Config.extDetails k op f

/-- Write the five flags. -/
def Flags.withDetails (f : Flags) (d : ExtDetails) : Flags :=
  { f with
    fH := d.fH
    fP := d.fP
    f3 := d.f3
    f5 := d.f5
    fN := d.fN }

/-- Write fH, f3, f5 and fN, and keep fP. -/
def Flags.withDetailsKeepingP (f : Flags) (d : ExtDetails) : Flags := { f.withDetails d with fP := f.fP }

/-! ## Add, subtract, compare -/

/-- `add8` (R79 in BASE, R81 in EXT). Every set of EXT rules has the source's fH. -/
def add8 (m : FlagRules) (f : Flags) (a b : Byte) (cin : Bool) : Byte × Flags :=
  let t := a.toNat + b.toNat + cin.toNat
  let r := BitVec.ofNat 8 t
  let g := { f with
    fS := bitOf r 7
    fZ := r == 0
    fH := addHc (hcIndex a b r)
    fC := t.testBit 8 }
  match m with
  | .base => (r, { g with fP := parity r })
  | .ext x => (r, { g.withDetails (extDetails x (.add a b cin) f
      { fH := g.fH
        fP := ((a ^^^ b) &&& 0x80) == 0 && ((a ^^^ r) &&& 0x80) != 0
        fN := false
        f3 := bitOf r 3
        f5 := bitOf r 5 }) with fH := g.fH })

/-- `sub8` (R80 in BASE, R82 in EXT). The unmasked result is a signed integer, so the carry is the borrow (D29). -/
def sub8 (m : FlagRules) (f : Flags) (a b : Byte) (bin : Bool) : Byte × Flags :=
  let t : Int := (a.toNat : Int) - (b.toNat : Int) - (bin.toNat : Int)
  let r := BitVec.ofInt 8 t
  let g := { f with
    fS := bitOf r 7
    fZ := r == 0
    fC := decide (t < 0) }
  match m with
  | .base => (r, { g with
      fH := !subHb (hcIndex a b r)
      fP := parity r })
  | .ext x => (r, g.withDetails (extDetails x (.sub a b bin) f
      { fH := subHb (hcIndex a b r)
        fP := ((a ^^^ b) &&& 0x80) != 0 && ((a ^^^ r) &&& 0x80) != 0
        fN := true
        f3 := bitOf r 3
        f5 := bitOf r 5 }))

/-- `cmp8`: the flags of a subtraction whose result is discarded; in EXT f3 and f5 copy the operand (R83). -/
def cmp8 (m : FlagRules) (f : Flags) (a b : Byte) : Flags :=
  let g := (sub8 m f a b false).2
  match m with
  | .base => g
  | .ext x => g.withDetails (extDetails x (.cmp a b) f
      { fH := g.fH
        fP := g.fP
        fN := g.fN
        f3 := bitOf b 3
        f5 := bitOf b 5 })

/-! ## Increment and decrement -/

/-- `inc8` (R84). fC is kept, and every set of EXT rules has the source's fH. -/
def inc8 (m : FlagRules) (f : Flags) (x : Byte) : Byte × Flags :=
  let r := x + 1
  let g := { f with
    fS := bitOf r 7
    fZ := r == 0
    fH := (x &&& 0x0F) == 0x0F }
  match m with
  | .base => (r, { g with fP := parity r })
  | .ext e => (r, { g.withDetails (extDetails e (.inc x) f
      { fH := g.fH
        fP := x == 0x7F
        fN := false
        f3 := bitOf r 3
        f5 := bitOf r 5 }) with fH := g.fH })

/-- `dec8` (R85). fC is kept. -/
def dec8 (m : FlagRules) (f : Flags) (x : Byte) : Byte × Flags :=
  let r := x - 1
  let g := { f with
    fS := bitOf r 7
    fZ := r == 0 }
  match m with
  | .base => (r, { g with
      fH := (x &&& 0x0F) != 0
      fP := parity r })
  | .ext e => (r, g.withDetails (extDetails e (.dec x) f
      { fH := (x &&& 0x0F) == 0
        fP := x == 0x80
        fN := true
        f3 := bitOf r 3
        f5 := bitOf r 5 }))

/-! ## Logic -/

/-- The flags every logic operation writes from its result `r`, with the half-carry of each mode given (R86, R87). Every
set of EXT rules has parity as fP: the source makes fP overflow for "compare/add/subtract" alone. -/
def logicFlags (m : FlagRules) (f : Flags) (op : AluOp) (r : Byte) (hBase hExt : Bool) : Flags :=
  let g := { f with
    fS := bitOf r 7
    fZ := r == 0
    fP := parity r
    fC := false }
  match m with
  | .base => { g with fH := hBase }
  | .ext x => g.withDetailsKeepingP (extDetails x op f
      { fH := hExt
        fP := g.fP
        fN := false
        f3 := bitOf r 3
        f5 := bitOf r 5 })

/-- `and8` (R86): in BASE the half-carry is the OR of bit 3 of the operands, in EXT it is set. -/
def and8 (m : FlagRules) (f : Flags) (a b : Byte) : Byte × Flags :=
  (a &&& b, logicFlags m f (.and a b) (a &&& b) (((a ||| b) &&& 0x08) != 0) true)

/-- `xor8` (R87). -/
def xor8 (m : FlagRules) (f : Flags) (a b : Byte) : Byte × Flags :=
  (a ^^^ b, logicFlags m f (.xor a b) (a ^^^ b) false false)

/-- `or8` (R87). -/
def or8 (m : FlagRules) (f : Flags) (a b : Byte) : Byte × Flags :=
  (a ||| b, logicFlags m f (.or a b) (a ||| b) false false)

/-! ## Rotates -/

/-- The flags of a rotate with result `r` and carry `c` (R88): in EXT also fH and fN cleared, f3 and f5 from `r`. -/
def rotateFlags (m : FlagRules) (f : Flags) (op : AluOp) (r : Byte) (c : Bool) : Flags :=
  let g := { f with fC := c }
  match m with
  | .base => g
  | .ext x => g.withDetailsKeepingP (extDetails x op f
      { fH := false
        fP := f.fP
        fN := false
        f3 := bitOf r 3
        f5 := bitOf r 5 })

/-- `rlc` (R88). -/
def rlc8 (m : FlagRules) (f : Flags) (a : Byte) : Byte × Flags :=
  let c := bitOf a 7
  let r := (a <<< 1) ||| bitByte c
  (r, rotateFlags m f (.rlc a) r c)

/-- `rrc` (R88). -/
def rrc8 (m : FlagRules) (f : Flags) (a : Byte) : Byte × Flags :=
  let c := bitOf a 0
  let r := (a >>> 1) ||| (bitByte c <<< 7)
  (r, rotateFlags m f (.rrc a) r c)

/-- `ral` (R88). -/
def ral8 (m : FlagRules) (f : Flags) (a : Byte) : Byte × Flags :=
  let c := bitOf a 7
  let r := (a <<< 1) ||| bitByte f.fC
  (r, rotateFlags m f (.ral a) r c)

/-- `rar` (R88). -/
def rar8 (m : FlagRules) (f : Flags) (a : Byte) : Byte × Flags :=
  let c := bitOf a 0
  let r := (a >>> 1) ||| (bitByte f.fC <<< 7)
  (r, rotateFlags m f (.rar a) r c)

/-! ## Accumulator and carry operations -/

/-- The flags of CMA with A `a`, whose complement is the new A (R149): none in BASE. -/
def cmaFlags (m : FlagRules) (f : Flags) (a : Byte) : Flags :=
  match m with
  | .base => f
  | .ext x => f.withDetailsKeepingP (extDetails x (.cma a) f
      { fH := true
        fP := f.fP
        fN := true
        f3 := bitOf (~~~a) 3
        f5 := bitOf (~~~a) 5 })

/-- The flags of CMC with A `a` (R150). -/
def cmcFlags (m : FlagRules) (f : Flags) (a : Byte) : Flags :=
  let g := { f with fC := !f.fC }
  match m with
  | .base => g
  | .ext x => g.withDetailsKeepingP (extDetails x (.cmc a) f
      { fH := f.fC
        fP := f.fP
        fN := false
        f3 := bitOf a 3
        f5 := bitOf a 5 })

/-- The flags of STC with A `a` (R151). -/
def stcFlags (m : FlagRules) (f : Flags) (a : Byte) : Flags :=
  let g := { f with fC := true }
  match m with
  | .base => g
  | .ext x => g.withDetailsKeepingP (extDetails x (.stc a) f
      { fH := false
        fP := f.fP
        fN := false
        f3 := bitOf a 3
        f5 := bitOf a 5 })

/-! ## 16-bit add -/

/-- `add16` (R89). fS, fZ and fP are kept. -/
def add16 (m : FlagRules) (f : Flags) (hl x : Word) : Word × Flags :=
  let t := hl.toNat + x.toNat
  let r := BitVec.ofNat 16 t
  let g := { f with fC := t.testBit 16 }
  match m with
  | .base => (r, g)
  | .ext e => (r, g.withDetailsKeepingP (extDetails e (.add16 hl x) f
      { fH := decide (0x0FFF < (hl &&& 0x0FFF).toNat + (x &&& 0x0FFF).toNat)
        fP := f.fP
        fN := false
        f3 := r.getLsbD 11
        f5 := r.getLsbD 13 }))

/-! ## Decimal adjust -/

/-- `daa` in BASE (R90), the source's algorithm word for word. -/
def daaBase (f : Flags) (a : Byte) : Byte × Flags :=
  let low := a.toNat % 16
  let corr : Byte := if f.fH || decide (9 < low) then 0x06 else 0
  let corr : Byte :=
    if f.fC || decide (0x9F < a.toNat) || (decide (0x8F < a.toNat) && decide (9 < low)) then corr ||| 0x60 else corr
  let (r, g) := add8 .base f a corr false
  (r, if decide (0x99 < a.toNat) || f.fC then { g with fC := true } else g)

/-- A after a decimal adjust that follows a subtraction: the Z80 subtracts the correction (D13). -/
def daaAfterSub (x : ExtFlagRules) (f : Flags) (a corr : Byte) : Byte :=
  match x with
  | .z80 => a - corr
  | .other k => Config.extDaa k f a

/-- `daa` in EXT (R91). The add path is the source's under every set of EXT rules, fP apart; what fN = 1 makes of A and
fH is the set's (D13). fN is kept. -/
def daaExt (x : ExtFlagRules) (f : Flags) (a : Byte) : Byte × Flags :=
  let low := a.toNat % 16
  let corr : Byte := if f.fH || decide (9 < low) then 0x06 else 0
  let c := f.fC || decide (0x99 < a.toNat)
  let corr : Byte := if c then corr ||| 0x60 else corr
  let r := if f.fN then daaAfterSub x f a corr else a + corr
  let d := extDetails x (.daa a) f
    { fH := f.fH && decide (low < 6)
      fP := parity r
      fN := f.fN
      f3 := bitOf r 3
      f5 := bitOf r 5 }
  (r, { f with
    fS := bitOf r 7
    fZ := r == 0
    fH := if f.fN then d.fH else decide (9 < low)
    fP := d.fP
    fC := c
    f3 := d.f3
    f5 := d.f5 })

/-- `daa` by mode. -/
def daa8 (m : FlagRules) (f : Flags) (a : Byte) : Byte × Flags :=
  match m with
  | .base => daaBase f a
  | .ext x => daaExt x f a

/-! ## Pack and unpack -/

/-- `pack()` (R92): in BASE bit 1 is 1 and bits 3 and 5 are 0. -/
def packFlags (m : Mode) (f : Flags) : Byte :=
  let common := (bitByte f.fS <<< 7) ||| (bitByte f.fZ <<< 6) ||| (bitByte f.fH <<< 4) ||| (bitByte f.fP <<< 2)
    ||| bitByte f.fC
  match m with
  | .base => common ||| 0x02
  | .ext => common ||| (bitByte f.f5 <<< 5) ||| (bitByte f.f3 <<< 3) ||| (bitByte f.fN <<< 1)

/-- `unpack(v)` (R93): in BASE bits 1, 3 and 5 are ignored. -/
def unpackFlags (m : Mode) (f : Flags) (v : Byte) : Flags :=
  let g := { f with
    fS := bitOf v 7
    fZ := bitOf v 6
    fH := bitOf v 4
    fP := bitOf v 2
    fC := bitOf v 0 }
  match m with
  | .base => g
  | .ext => { g with
      f5 := bitOf v 5
      f3 := bitOf v 3
      fN := bitOf v 1 }

end Sys2Proof.Machine
end

