-- ==== Sys2Proof/Machine/Ticks.lean ====
section
/-! DEFINITION. The decided tick tables of 70_reset_and_hazards.md, cell by cell, and the lookup of a configured table. -/

namespace Sys2Proof.Machine

/-- The decided TICKS_BASE (R201, D23), each cell (taken, not taken). Row `k` holds the opcodes
`0xk0` to `0xkF`; a plain cell `n` is `(n, n)`. -/
def decidedTicksBase : TickTable :=
  #v[
    #v[(4, 4), (10, 10), (7, 7), (5, 5), (5, 5), (5, 5), (7, 7), (4, 4), (4, 4), (10, 10), (7, 7), (5, 5), (5, 5), (5, 5), (7, 7), (4, 4)],
    #v[(4, 4), (10, 10), (7, 7), (5, 5), (5, 5), (5, 5), (7, 7), (4, 4), (4, 4), (10, 10), (7, 7), (5, 5), (5, 5), (5, 5), (7, 7), (4, 4)],
    #v[(4, 4), (10, 10), (16, 16), (5, 5), (5, 5), (5, 5), (7, 7), (4, 4), (4, 4), (10, 10), (16, 16), (5, 5), (5, 5), (5, 5), (7, 7), (4, 4)],
    #v[(4, 4), (10, 10), (13, 13), (5, 5), (10, 10), (10, 10), (10, 10), (4, 4), (4, 4), (10, 10), (13, 13), (5, 5), (5, 5), (5, 5), (7, 7), (4, 4)],
    #v[(5, 5), (5, 5), (5, 5), (5, 5), (5, 5), (5, 5), (7, 7), (5, 5), (5, 5), (5, 5), (5, 5), (5, 5), (5, 5), (5, 5), (7, 7), (5, 5)],
    #v[(5, 5), (5, 5), (5, 5), (5, 5), (5, 5), (5, 5), (7, 7), (5, 5), (5, 5), (5, 5), (5, 5), (5, 5), (5, 5), (5, 5), (7, 7), (5, 5)],
    #v[(5, 5), (5, 5), (5, 5), (5, 5), (5, 5), (5, 5), (7, 7), (5, 5), (5, 5), (5, 5), (5, 5), (5, 5), (5, 5), (5, 5), (7, 7), (5, 5)],
    #v[(7, 7), (7, 7), (7, 7), (7, 7), (7, 7), (7, 7), (7, 7), (7, 7), (5, 5), (5, 5), (5, 5), (5, 5), (5, 5), (5, 5), (7, 7), (5, 5)],
    #v[(4, 4), (4, 4), (4, 4), (4, 4), (4, 4), (4, 4), (7, 7), (4, 4), (4, 4), (4, 4), (4, 4), (4, 4), (4, 4), (4, 4), (7, 7), (4, 4)],
    #v[(4, 4), (4, 4), (4, 4), (4, 4), (4, 4), (4, 4), (7, 7), (4, 4), (4, 4), (4, 4), (4, 4), (4, 4), (4, 4), (4, 4), (7, 7), (4, 4)],
    #v[(4, 4), (4, 4), (4, 4), (4, 4), (4, 4), (4, 4), (7, 7), (4, 4), (4, 4), (4, 4), (4, 4), (4, 4), (4, 4), (4, 4), (7, 7), (4, 4)],
    #v[(4, 4), (4, 4), (4, 4), (4, 4), (4, 4), (4, 4), (7, 7), (4, 4), (4, 4), (4, 4), (4, 4), (4, 4), (4, 4), (4, 4), (7, 7), (4, 4)],
    #v[(11, 5), (10, 10), (10, 10), (10, 10), (17, 11), (11, 11), (7, 7), (11, 11), (11, 5), (10, 10), (10, 10), (10, 10), (17, 11), (17, 17), (7, 7), (11, 11)],
    #v[(11, 5), (10, 10), (10, 10), (10, 10), (17, 11), (11, 11), (7, 7), (11, 11), (11, 5), (10, 10), (10, 10), (10, 10), (17, 11), (17, 17), (7, 7), (11, 11)],
    #v[(11, 5), (10, 10), (10, 10), (18, 18), (17, 11), (11, 11), (7, 7), (11, 11), (11, 5), (5, 5), (10, 10), (4, 4), (17, 11), (17, 17), (7, 7), (11, 11)],
    #v[(11, 5), (10, 10), (10, 10), (4, 4), (17, 11), (11, 11), (7, 7), (11, 11), (11, 5), (5, 5), (10, 10), (4, 4), (17, 11), (17, 17), (7, 7), (11, 11)]]

/-- The decided TICKS_EXT (R202, D23), each cell (taken, not taken); the cells of the prefix bytes
are not read. Row `k` holds the opcodes `0xk0` to `0xkF`; a plain cell `n` is `(n, n)`. -/
def decidedTicksExt : TickTable :=
  #v[
    #v[(4, 4), (10, 10), (7, 7), (6, 6), (4, 4), (4, 4), (7, 7), (4, 4), (4, 4), (11, 11), (7, 7), (6, 6), (4, 4), (4, 4), (7, 7), (4, 4)],
    #v[(13, 8), (10, 10), (7, 7), (6, 6), (4, 4), (4, 4), (7, 7), (4, 4), (12, 12), (11, 11), (7, 7), (6, 6), (4, 4), (4, 4), (7, 7), (4, 4)],
    #v[(12, 7), (10, 10), (16, 16), (6, 6), (4, 4), (4, 4), (7, 7), (4, 4), (12, 7), (11, 11), (16, 16), (6, 6), (4, 4), (4, 4), (7, 7), (4, 4)],
    #v[(12, 7), (10, 10), (13, 13), (6, 6), (11, 11), (11, 11), (10, 10), (4, 4), (12, 7), (11, 11), (13, 13), (6, 6), (4, 4), (4, 4), (7, 7), (4, 4)],
    #v[(4, 4), (4, 4), (4, 4), (4, 4), (4, 4), (4, 4), (7, 7), (4, 4), (4, 4), (4, 4), (4, 4), (4, 4), (4, 4), (4, 4), (7, 7), (4, 4)],
    #v[(4, 4), (4, 4), (4, 4), (4, 4), (4, 4), (4, 4), (7, 7), (4, 4), (4, 4), (4, 4), (4, 4), (4, 4), (4, 4), (4, 4), (7, 7), (4, 4)],
    #v[(4, 4), (4, 4), (4, 4), (4, 4), (4, 4), (4, 4), (7, 7), (4, 4), (4, 4), (4, 4), (4, 4), (4, 4), (4, 4), (4, 4), (7, 7), (4, 4)],
    #v[(7, 7), (7, 7), (7, 7), (7, 7), (7, 7), (7, 7), (4, 4), (7, 7), (4, 4), (4, 4), (4, 4), (4, 4), (4, 4), (4, 4), (7, 7), (4, 4)],
    #v[(4, 4), (4, 4), (4, 4), (4, 4), (4, 4), (4, 4), (7, 7), (4, 4), (4, 4), (4, 4), (4, 4), (4, 4), (4, 4), (4, 4), (7, 7), (4, 4)],
    #v[(4, 4), (4, 4), (4, 4), (4, 4), (4, 4), (4, 4), (7, 7), (4, 4), (4, 4), (4, 4), (4, 4), (4, 4), (4, 4), (4, 4), (7, 7), (4, 4)],
    #v[(4, 4), (4, 4), (4, 4), (4, 4), (4, 4), (4, 4), (7, 7), (4, 4), (4, 4), (4, 4), (4, 4), (4, 4), (4, 4), (4, 4), (7, 7), (4, 4)],
    #v[(4, 4), (4, 4), (4, 4), (4, 4), (4, 4), (4, 4), (7, 7), (4, 4), (4, 4), (4, 4), (4, 4), (4, 4), (4, 4), (4, 4), (7, 7), (4, 4)],
    #v[(11, 5), (10, 10), (10, 10), (10, 10), (17, 10), (11, 11), (7, 7), (11, 11), (11, 5), (10, 10), (10, 10), (0, 0), (17, 10), (17, 17), (7, 7), (11, 11)],
    #v[(11, 5), (10, 10), (10, 10), (11, 11), (17, 10), (11, 11), (7, 7), (11, 11), (11, 5), (4, 4), (10, 10), (11, 11), (17, 10), (0, 0), (7, 7), (11, 11)],
    #v[(11, 5), (10, 10), (10, 10), (19, 19), (17, 10), (11, 11), (7, 7), (11, 11), (11, 5), (4, 4), (10, 10), (4, 4), (17, 10), (0, 0), (7, 7), (11, 11)],
    #v[(11, 5), (10, 10), (10, 10), (4, 4), (17, 10), (11, 11), (7, 7), (11, 11), (11, 5), (6, 6), (10, 10), (4, 4), (17, 10), (0, 0), (7, 7), (11, 11)]]

/-- `t[op]`: the row of the high digit, the column of the low one. -/
def tickCell (t : TickTable) (op : Byte) : Nat × Nat :=
  (t[op.toNat / 16]'(by have := op.isLt; omega))[op.toNat % 16]'(Nat.mod_lt _ (by decide))

/-- The entry of the configured mode's table for an opcode: (taken, not taken). In EXT a prefix byte costs PREFIX_TICKS
(R68, R178, R202). -/
def tickEntry (p : Params) (op : Byte) : Nat × Nat :=
  match p.mode with
  | .base => tickCell p.ticksBase op
  | .ext =>
    if op.toNat ∈ [0xCB, 0xDD, 0xED, 0xFD] then (p.prefixTicks, p.prefixTicks) else tickCell p.ticksExt op

end Sys2Proof.Machine
end

