-- ==== Sys2Proof/Machine/ResetValues.lean ====
section
/-! DEFINITION. The values State.reset is constructed with, where the spec leaves them OPEN (10_state.md R24,
70_reset_and_hazards.md R197, 20_memory.md R29) or decides them (00_scope.md R5). -/

namespace Sys2Proof.Machine

/-- MODE of the core State.reset constructs. OPEN (R2, D1). DESIGN CHOICE, log entry 1, unsafe. -/
def resetMode : Mode := .ext

/-- The parameters of R5: every one with a decided value at it, MODE and PPI_CONTROL as said above and in Config. -/
def resetParams : Params where
  mode := resetMode
  romBoundary := 0xC000
  windowLo := 0xF800
  windowHi := 0xFFFF
  ppiControl := Config.ppiControlTable
  windowDataWrite := .discard
  portAddressing := .zeroExtended
  ticksBase := decidedTicksBase
  ticksExt := decidedTicksExt
  prefixTicks := 0
  haltAdvancesPc := false
  extFlagRules := .z80

/-- RESET_PC of the core State.reset constructs. OPEN (R197, D5). DESIGN CHOICE, log entry 3, unsafe. -/
def resetPc : Word := 0x0000

/-- INIT_REGS of the core State.reset constructs. OPEN (R24, D6). DESIGN CHOICE, log entry 2, unsafe. -/
def resetRegs : InitRegs where
  a := 0
  b := 0
  c := 0
  d := 0
  e := 0
  h := 0
  l := 0
  sp := 0
  flags := ⟨false, false, false, false, false, false, false, false⟩
  alt := ⟨0, 0, 0, 0, 0, 0, 0, 0⟩
  ix := 0
  iy := 0
  iReg := 0
  rReg := 0
  iff1 := false
  iff2 := false

/-- INIT_MEM of the core State.reset constructs: nothing listed. OPEN (R29, D7). DESIGN CHOICE, log entry 4, unsafe. -/
def resetCells : List Host.Cell := []

end Sys2Proof.Machine
end

