-- ==== Sys2Proof/Syntax.lean ====
section
/-! DEFINITION. The instructions: one constructor per row of spec/opcode_table.json, in the table's order. Operand
fields are already read out of the opcode byte here (30_encoding.md R52 to R56), so the machine never sees an encoding. -/

namespace Sys2Proof

/-- The register slots of a 3-bit field, without slot 6, the byte at HL, which has rows of its own (R53). -/
inductive Reg where
  | b | c | d | e | h | l | a
  deriving DecidableEq, Repr

/-- `rp(i)`: the pairs of LXI, INX, DCX and DAD (R54). -/
inductive RegPair where
  | bc | de | hl | sp
  deriving DecidableEq, Repr

/-- The pairs of PUSH rp and POP rp: `rp2(i)` without AF, which has rows of its own (R54, R161, R163). -/
inductive StackPair where
  | bc | de | hl
  deriving DecidableEq, Repr

/-- The address pairs of LDAX and STAX (R54). -/
inductive AddrPair where
  | bc | de
  deriving DecidableEq, Repr

/-- The conditions of the CCC field, in its order (R56). -/
inductive Cond where
  | nz | z | nc | c | po | pe | p | m
  deriving DecidableEq, Repr

/-- The conditions of the CC2 field of JR cc, in its order (R56). -/
inductive JrCond where
  | nz | z | nc | c
  deriving DecidableEq, Repr

/-- The instructions of both modes. `v` is imm8, `w` is imm16, `d` a displacement byte. -/
inductive Instr where
  -- 42_data_transfer.md
  | movRR (dst src : Reg)
  | movRM (dst : Reg)
  | movMR (src : Reg)
  | mviR (dst : Reg) (v : Byte)
  | mviM (v : Byte)
  | lxi (p : RegPair) (w : Word)
  | lda (w : Word)
  | sta (w : Word)
  | lhld (w : Word)
  | shld (w : Word)
  | ldax (p : AddrPair)
  | stax (p : AddrPair)
  | xchg
  -- 43_arithmetic.md
  | addR (src : Reg)
  | addM
  | adi (v : Byte)
  | adcR (src : Reg)
  | adcM
  | aci (v : Byte)
  | subR (src : Reg)
  | subM
  | sui (v : Byte)
  | sbbR (src : Reg)
  | sbbM
  | sbi (v : Byte)
  | inrR (dst : Reg)
  | inrM
  | dcrR (dst : Reg)
  | dcrM
  | inx (p : RegPair)
  | dcx (p : RegPair)
  | dad (p : RegPair)
  | daa
  -- 44_logical_rotate.md
  | anaR (src : Reg)
  | anaM
  | ani (v : Byte)
  | xraR (src : Reg)
  | xraM
  | xri (v : Byte)
  | oraR (src : Reg)
  | oraM
  | ori (v : Byte)
  | cmpR (src : Reg)
  | cmpM
  | cpi (v : Byte)
  | rlc
  | rrc
  | ral
  | rar
  | cma
  | cmc
  | stc
  -- 45_branch.md; an `Alias` constructor is the BASE duplicate of R59
  | jmp (w : Word)
  | jmpAlias (w : Word)
  | jcc (cc : Cond) (w : Word)
  | call (w : Word)
  /-- `k` is bits 5:4 of the opcode: 1, 2, 3 for 0xDD, 0xED, 0xFD (R59). -/
  | callAlias (k : BitVec 2) (w : Word)
  | ccc (cc : Cond) (w : Word)
  | ret
  | retAlias
  | rcc (cc : Cond)
  | rst (n : BitVec 3)
  | pchl
  -- 46_stack_io_control.md
  | push (p : StackPair)
  | pushPsw
  | pop (p : StackPair)
  | popPsw
  | xthl
  | sphl
  | inPort (v : Byte)
  | outPort (v : Byte)
  | ei
  | di
  | hlt
  | nop
  /-- `k` is bits 5:3 of the opcode: 1 to 7 for 0x08, 0x10, ..., 0x38 (R59). -/
  | nopAlias (k : BitVec 3)
  -- 47_extended_mode.md, EXT only
  | exAfAf
  | exx
  | djnz (d : Byte)
  | jr (d : Byte)
  | jrCc (cc : JrCond) (d : Byte)
  | prefixCB
  | prefixDD
  | prefixED
  | prefixFD
  deriving DecidableEq, Repr

end Sys2Proof
end

