-- ==== Sys2Proof/WellFormed.lean ====
section
/-! DEFINITION. Which instructions exist in which mode (00_scope.md R6, 30_encoding.md R57 to R59), and the range of
the two alias numbers. Registers, pairs and conditions are well-formed by their types. -/

namespace Sys2Proof

/-- The instruction is in the dispatch table of mode `m`, with operands its encoding admits. -/
def Instr.wf (m : Mode) : Instr → Bool
  | .nopAlias k => m == .base && k != 0
  | .jmpAlias _ => m == .base
  | .retAlias => m == .base
  | .callAlias k _ => m == .base && k != 0
  | .exAfAf => m == .ext
  | .exx => m == .ext
  | .djnz _ => m == .ext
  | .jr _ => m == .ext
  | .jrCc _ _ => m == .ext
  | .prefixCB => m == .ext
  | .prefixDD => m == .ext
  | .prefixED => m == .ext
  | .prefixFD => m == .ext
  | .movRR _ _ | .movRM _ | .movMR _ | .mviR _ _ | .mviM _ | .lxi _ _ | .lda _ | .sta _ | .lhld _ | .shld _
  | .ldax _ | .stax _ | .xchg
  | .addR _ | .addM | .adi _ | .adcR _ | .adcM | .aci _ | .subR _ | .subM | .sui _ | .sbbR _ | .sbbM | .sbi _
  | .inrR _ | .inrM | .dcrR _ | .dcrM | .inx _ | .dcx _ | .dad _ | .daa
  | .anaR _ | .anaM | .ani _ | .xraR _ | .xraM | .xri _ | .oraR _ | .oraM | .ori _ | .cmpR _ | .cmpM | .cpi _
  | .rlc | .rrc | .ral | .rar | .cma | .cmc | .stc
  | .jmp _ | .jcc _ _ | .call _ | .ccc _ _ | .ret | .rcc _ | .rst _ | .pchl
  | .push _ | .pushPsw | .pop _ | .popPsw | .xthl | .sphl | .inPort _ | .outPort _ | .ei | .di | .hlt | .nop => true

end Sys2Proof
end

