-- ==== Sys2Proof/Decode.lean ====
section
/-! DEFINITION. The decoder and the encoder, each written from 30_encoding.md: the fields of R52 to R56, the maps R57
and R58, the duplicates R59, the lengths R62. -/

namespace Sys2Proof

/-! ## Operand fields -/

/-- The register slots of R53; slot 6 is the byte at HL. -/
def regOf (k : BitVec 3) : Option Reg :=
  match k.toNat with
  | 0 => some .b
  | 1 => some .c
  | 2 => some .d
  | 3 => some .e
  | 4 => some .h
  | 5 => some .l
  | 6 => none
  | _ => some .a

/-- `rp(i)` (R54). -/
def pairOf (k : BitVec 2) : RegPair :=
  match k.toNat with
  | 0 => .bc
  | 1 => .de
  | 2 => .hl
  | _ => .sp

/-- `rp2(i)` (R54); 3 is AF. -/
def stackPairOf (k : BitVec 2) : Option StackPair :=
  match k.toNat with
  | 0 => some .bc
  | 1 => some .de
  | 2 => some .hl
  | _ => none

/-- The CCC field (R56). -/
def condOf (k : BitVec 3) : Cond :=
  match k.toNat with
  | 0 => .nz
  | 1 => .z
  | 2 => .nc
  | 3 => .c
  | 4 => .po
  | 5 => .pe
  | 6 => .p
  | _ => .m

/-- The CC2 field of JR cc (R56). -/
def jrCondOf (k : BitVec 2) : JrCond :=
  match k.toNat with
  | 0 => .nz
  | 1 => .z
  | 2 => .nc
  | _ => .c

/-! ## The decoder -/

/-- Opcodes `00yyyzzz` (R52, R57, R58). -/
def decodeGroup0 (m : Mode) (y z : BitVec 3) (b1 b2 : Byte) : Instr :=
  let p := y.extractLsb' 1 2
  let q := y.getLsbD 0
  let w := Machine.wordOf b2 b1
  match z.toNat with
  | 0 =>
    match m, y.toNat with
    | _, 0 => .nop
    | .base, _ => .nopAlias y
    | .ext, 1 => .exAfAf
    | .ext, 2 => .djnz b1
    | .ext, 3 => .jr b1
    | .ext, _ => .jrCc (jrCondOf (y.extractLsb' 0 2)) b1
  | 1 => if q then .dad (pairOf p) else .lxi (pairOf p) w
  | 2 =>
    match y.toNat with
    | 0 => .stax .bc
    | 1 => .ldax .bc
    | 2 => .stax .de
    | 3 => .ldax .de
    | 4 => .shld w
    | 5 => .lhld w
    | 6 => .sta w
    | _ => .lda w
  | 3 => if q then .dcx (pairOf p) else .inx (pairOf p)
  | 4 => match regOf y with
    | some r => .inrR r
    | none => .inrM
  | 5 => match regOf y with
    | some r => .dcrR r
    | none => .dcrM
  | 6 => match regOf y with
    | some r => .mviR r b1
    | none => .mviM b1
  | _ =>
    match y.toNat with
    | 0 => .rlc
    | 1 => .rrc
    | 2 => .ral
    | 3 => .rar
    | 4 => .daa
    | 5 => .cma
    | 6 => .stc
    | _ => .cmc

/-- Opcodes `01dddsss`: MOV, with HLT in the cell of MOV M,M (R52). -/
def decodeGroup1 (y z : BitVec 3) : Instr :=
  match regOf y, regOf z with
  | some dst, some src => .movRR dst src
  | some dst, none => .movRM dst
  | none, some src => .movMR src
  | none, none => .hlt

/-- Opcodes `10aaasss`: the ALU with a register or M (R52). -/
def decodeGroup2 (y z : BitVec 3) : Instr :=
  match y.toNat, regOf z with
  | 0, some s => .addR s
  | 0, none => .addM
  | 1, some s => .adcR s
  | 1, none => .adcM
  | 2, some s => .subR s
  | 2, none => .subM
  | 3, some s => .sbbR s
  | 3, none => .sbbM
  | 4, some s => .anaR s
  | 4, none => .anaM
  | 5, some s => .xraR s
  | 5, none => .xraM
  | 6, some s => .oraR s
  | 6, none => .oraM
  | _, some s => .cmpR s
  | _, none => .cmpM

/-- Opcodes `11yyyzzz` (R52, R57, R58). -/
def decodeGroup3 (m : Mode) (y z : BitVec 3) (b1 b2 : Byte) : Instr :=
  let p := y.extractLsb' 1 2
  let q := y.getLsbD 0
  let w := Machine.wordOf b2 b1
  match z.toNat with
  | 0 => .rcc (condOf y)
  | 1 =>
    match q, p.toNat with
    | false, _ => match stackPairOf p with
      | some r => .pop r
      | none => .popPsw
    | true, 0 => .ret
    | true, 1 => match m with
      | .base => .retAlias
      | .ext => .exx
    | true, 2 => .pchl
    | true, _ => .sphl
  | 2 => .jcc (condOf y) w
  | 3 =>
    match y.toNat with
    | 0 => .jmp w
    | 1 => match m with
      | .base => .jmpAlias w
      | .ext => .prefixCB
    | 2 => .outPort b1
    | 3 => .inPort b1
    | 4 => .xthl
    | 5 => .xchg
    | 6 => .di
    | _ => .ei
  | 4 => .ccc (condOf y) w
  | 5 =>
    match q, m, p.toNat with
    | false, _, _ => match stackPairOf p with
      | some r => .push r
      | none => .pushPsw
    | true, _, 0 => .call w
    | true, .base, _ => .callAlias p w
    | true, .ext, 1 => .prefixDD
    | true, .ext, 2 => .prefixED
    | true, .ext, _ => .prefixFD
  | 6 =>
    match y.toNat with
    | 0 => .adi b1
    | 1 => .aci b1
    | 2 => .sui b1
    | 3 => .sbi b1
    | 4 => .ani b1
    | 5 => .xri b1
    | 6 => .ori b1
    | _ => .cpi b1
  | _ => .rst y

/-- `DISPATCH[MODE][op]` with the operand bytes at PC+1 and PC+2 read into the fields (R55, R66). Total: no opcode is
illegal (R60). An operand byte the instruction does not have is ignored. -/
def decodeOpcode (m : Mode) (op b1 b2 : Byte) : Instr :=
  match (op.extractLsb' 6 2).toNat with
  | 0 => decodeGroup0 m (op.extractLsb' 3 3) (op.extractLsb' 0 3) b1 b2
  | 1 => decodeGroup1 (op.extractLsb' 3 3) (op.extractLsb' 0 3)
  | 2 => decodeGroup2 (op.extractLsb' 3 3) (op.extractLsb' 0 3)
  | _ => decodeGroup3 m (op.extractLsb' 3 3) (op.extractLsb' 0 3) b1 b2

/-- The opcodes that are three bytes long in both modes (R62). -/
def threeByteOpcodes : List Nat :=
  [0x01, 0x11, 0x21, 0x22, 0x2A, 0x31, 0x32, 0x3A] ++
  [0xC2, 0xC3, 0xC4, 0xCA, 0xCC, 0xCD, 0xD2, 0xD4, 0xDA, 0xDC] ++
  [0xE2, 0xE4, 0xEA, 0xEC, 0xF2, 0xF4, 0xFA, 0xFC]

/-- The opcodes that are two bytes long in both modes (R62). -/
def twoByteOpcodes : List Nat :=
  [0x06, 0x0E, 0x16, 0x1E, 0x26, 0x2E, 0x36, 0x3E] ++
  [0xC6, 0xCE, 0xD3, 0xD6, 0xDB, 0xDE, 0xE6, 0xEE, 0xF6, 0xFE]

/-- The opcodes that are three bytes long in BASE and one in EXT (R62). -/
def baseThreeByteOpcodes : List Nat := [0xCB, 0xDD, 0xED, 0xFD]

/-- The opcodes that are one byte long in BASE and two in EXT (R62). -/
def extTwoByteOpcodes : List Nat := [0x10, 0x18, 0x20, 0x28, 0x30, 0x38]

/-- The length a decoder tells from the opcode byte and the mode (R50, R62). -/
def instrLength (m : Mode) (op : Byte) : Nat :=
  if op.toNat ∈ threeByteOpcodes then 3
  else if op.toNat ∈ twoByteOpcodes then 2
  else match m with
    | .base => if op.toNat ∈ baseThreeByteOpcodes then 3 else 1
    | .ext => if op.toNat ∈ extTwoByteOpcodes then 2 else 1

/-- Why a byte sequence is no instruction. No opcode is: only a sequence that ends too early (R60). -/
inductive DecodeError where
  /-- There is no opcode byte. -/
  | noOpcode
  /-- The operand bytes the opcode asks for are missing. -/
  | operandsMissing
  deriving DecidableEq, Repr

/-- Decode the instruction at the front of a byte sequence and give back the bytes after it. -/
def decode (m : Mode) : List Byte → Except DecodeError (Instr × List Byte)
  | [] => .error .noOpcode
  | op :: rest =>
    if rest.length + 1 < instrLength m op then .error .operandsMissing
    else .ok (decodeOpcode m op (rest.getD 0 0) (rest.getD 1 0), rest.drop (instrLength m op - 1))

/-! ## The encoder -/

/-- The code of a register slot (R53). -/
def Reg.code : Reg → BitVec 3
  | .b => 0
  | .c => 1
  | .d => 2
  | .e => 3
  | .h => 4
  | .l => 5
  | .a => 7

/-- The code of `rp` (R54). -/
def RegPair.code : RegPair → BitVec 2
  | .bc => 0
  | .de => 1
  | .hl => 2
  | .sp => 3

/-- The code of `rp2`, AF apart (R54). -/
def StackPair.code : StackPair → BitVec 2
  | .bc => 0
  | .de => 1
  | .hl => 2

/-- The bit `p` of LDAX and STAX (R52). -/
def AddrPair.code : AddrPair → BitVec 1
  | .bc => 0
  | .de => 1

/-- The CCC code (R56). -/
def Cond.code : Cond → BitVec 3
  | .nz => 0
  | .z => 1
  | .nc => 2
  | .c => 3
  | .po => 4
  | .pe => 5
  | .p => 6
  | .m => 7

/-- The CC2 code (R56). -/
def JrCond.code : JrCond → BitVec 2
  | .nz => 0
  | .z => 1
  | .nc => 2
  | .c => 3

/-- Format F3: the opcode and a word, low byte first (R51, R55). -/
def encodeWord (op : Byte) (w : Word) : List Byte := [op, Machine.loByte w, Machine.hiByte w]

/-- The bytes of an instruction, written from the bit patterns of R52, the maps and the duplicates of R59. -/
def encode : Instr → List Byte
  | .movRR dst src => [0b01#2 ++ dst.code ++ src.code]
  | .movRM dst => [0b01#2 ++ dst.code ++ 0b110#3]
  | .movMR s => [0b01110#5 ++ s.code]
  | .mviR dst v => [0b00#2 ++ dst.code ++ 0b110#3, v]
  | .mviM v => [0b00110110, v]
  | .lxi p w => encodeWord (0b00#2 ++ p.code ++ 0b0001#4) w
  | .lda w => encodeWord 0b00111010 w
  | .sta w => encodeWord 0b00110010 w
  | .lhld w => encodeWord 0b00101010 w
  | .shld w => encodeWord 0b00100010 w
  | .ldax p => [0b000#3 ++ p.code ++ 0b1010#4]
  | .stax p => [0b000#3 ++ p.code ++ 0b0010#4]
  | .xchg => [0b11101011]
  | .addR s => [0b10000#5 ++ s.code]
  | .addM => [0b10000110]
  | .adi v => [0b11000110, v]
  | .adcR s => [0b10001#5 ++ s.code]
  | .adcM => [0b10001110]
  | .aci v => [0b11001110, v]
  | .subR s => [0b10010#5 ++ s.code]
  | .subM => [0b10010110]
  | .sui v => [0b11010110, v]
  | .sbbR s => [0b10011#5 ++ s.code]
  | .sbbM => [0b10011110]
  | .sbi v => [0b11011110, v]
  | .inrR dst => [0b00#2 ++ dst.code ++ 0b100#3]
  | .inrM => [0b00110100]
  | .dcrR dst => [0b00#2 ++ dst.code ++ 0b101#3]
  | .dcrM => [0b00110101]
  | .inx p => [0b00#2 ++ p.code ++ 0b0011#4]
  | .dcx p => [0b00#2 ++ p.code ++ 0b1011#4]
  | .dad p => [0b00#2 ++ p.code ++ 0b1001#4]
  | .daa => [0b00100111]
  | .anaR s => [0b10100#5 ++ s.code]
  | .anaM => [0b10100110]
  | .ani v => [0b11100110, v]
  | .xraR s => [0b10101#5 ++ s.code]
  | .xraM => [0b10101110]
  | .xri v => [0b11101110, v]
  | .oraR s => [0b10110#5 ++ s.code]
  | .oraM => [0b10110110]
  | .ori v => [0b11110110, v]
  | .cmpR s => [0b10111#5 ++ s.code]
  | .cmpM => [0b10111110]
  | .cpi v => [0b11111110, v]
  | .rlc => [0b00000111]
  | .rrc => [0b00001111]
  | .ral => [0b00010111]
  | .rar => [0b00011111]
  | .cma => [0b00101111]
  | .cmc => [0b00111111]
  | .stc => [0b00110111]
  | .jmp w => encodeWord 0b11000011 w
  | .jmpAlias w => encodeWord 0b11001011 w
  | .jcc cc w => encodeWord (0b11#2 ++ cc.code ++ 0b010#3) w
  | .call w => encodeWord 0b11001101 w
  | .callAlias k w => encodeWord (0b11#2 ++ k ++ 0b1101#4) w
  | .ccc cc w => encodeWord (0b11#2 ++ cc.code ++ 0b100#3) w
  | .ret => [0b11001001]
  | .retAlias => [0b11011001]
  | .rcc cc => [0b11#2 ++ cc.code ++ 0b000#3]
  | .rst n => [0b11#2 ++ n ++ 0b111#3]
  | .pchl => [0b11101001]
  | .push p => [0b11#2 ++ p.code ++ 0b0101#4]
  | .pushPsw => [0b11110101]
  | .pop p => [0b11#2 ++ p.code ++ 0b0001#4]
  | .popPsw => [0b11110001]
  | .xthl => [0b11100011]
  | .sphl => [0b11111001]
  | .inPort v => [0b11011011, v]
  | .outPort v => [0b11010011, v]
  | .ei => [0b11111011]
  | .di => [0b11110011]
  | .hlt => [0b01110110]
  | .nop => [0b00000000]
  | .nopAlias k => [0b00#2 ++ k ++ 0b000#3]
  | .exAfAf => [0b00001000]
  | .exx => [0b11011001]
  | .djnz d => [0b00010000, d]
  | .jr d => [0b00011000, d]
  | .jrCc cc d => [0b001#3 ++ cc.code ++ 0b000#3, d]
  | .prefixCB => [0b11001011]
  | .prefixDD => [0b11011101]
  | .prefixED => [0b11101101]
  | .prefixFD => [0b11111101]

/-- The opcode of an instruction: "the first byte of an instruction, selecting its handler" (00_scope.md, Glossary). -/
def Instr.opcode (i : Instr) : Byte := (encode i).getD 0 0

/-! ## The host's reading of a word of the opcode table -/

/-- The bytes of a table word: byte `k` is bits `8k+7` to `8k`, the first at the lowest address; every bit at or above
`nbits` is 0. The longest instruction has three bytes. -/
def tableBytes (nbits w : Nat) : List Byte :=
  let v := w % 2 ^ nbits
  [BitVec.ofNat 8 v, BitVec.ofNat 8 (v / 256), BitVec.ofNat 8 (v / 65536)]

/-- What the decoder reads from a table word, in the mode of State.reset (log entry 1). -/
def decodeTableWord (nbits w : Nat) : Option Instr :=
  match decode Machine.resetMode (tableBytes nbits w) with
  | .ok (i, _) => some i
  | .error _ => none

end Sys2Proof
end

