-- ==== Sys2Proof/Machine/Memory.lean ====
section
/-! DEFINITION. Memory: one array of 65,536 bytes (20_memory.md R28), held as the list of the bytes that differ from
what an unlisted address reads as, addresses strictly rising. The bus policy over it stands in Machine/Ops.lean. -/

namespace Sys2Proof.Machine

abbrev Memory := List Host.Cell

/-- What an address that no cell lists reads as. The spec gives no contents at construction (R29). DESIGN CHOICE,
log entry 4, unsafe. -/
def Memory.unlisted : Byte := 0

/-- The canonical form: addresses strictly rise, lie in the address space, and no cell holds the unlisted byte. -/
abbrev Memory.wf (m : Memory) : Prop :=
  m.Pairwise (fun x y => x.1 < y.1) ∧ ∀ c ∈ m, c.1 < 65536 ∧ c.2 ≠ Memory.unlisted

/-- The byte listed for key `k`. -/
def Memory.readKey : Memory → Nat → Byte
  | [], _ => Memory.unlisted
  | (k', v) :: rest, k => if k' = k then v else Memory.readKey rest k

/-- `mem[a]` (R30). -/
def Memory.read (m : Memory) (a : Word) : Byte := Memory.readKey m a.toNat

/-- Put a cell before the first cell with a larger key. -/
def Memory.insert : Memory → Nat → Byte → Memory
  | [], k, v => [(k, v)]
  | (k', v') :: rest, k, v => if k < k' then (k, v) :: (k', v') :: rest else (k', v') :: Memory.insert rest k v

/-- `mem[k] <- v` by key: drop what is listed for `k`, then list `v` unless it is what an unlisted address reads as. -/
def Memory.writeKey (m : Memory) (k : Nat) (v : Byte) : Memory :=
  if v = Memory.unlisted then m.filter (fun c => c.1 != k)
  else Memory.insert (m.filter (fun c => c.1 != k)) k v

/-- `mem[a] <- v` (R31). -/
def Memory.write (m : Memory) (a : Word) (v : Byte) : Memory := Memory.writeKey m a.toNat v

/-- `mem[w] <- f w` for every address `w` from `lo` to `hi` (R33, R34). -/
def Memory.fill (m : Memory) (lo hi : Word) (f : Word → Byte) : Memory :=
  m.filter (fun c => decide (c.1 < lo.toNat))
    ++ (List.range' lo.toNat (hi.toNat + 1 - lo.toNat)).filterMap
        (fun k => if f (BitVec.ofNat 16 k) = Memory.unlisted then none else some (k, f (BitVec.ofNat 16 k)))
    ++ m.filter (fun c => decide (hi.toNat < c.1))

/-- INIT_MEM in canonical form: the listed bytes written in order, each address taken modulo 65,536 (R29, R4). -/
def Memory.ofCells (cells : List Host.Cell) : Memory :=
  cells.foldl (fun m c => Memory.write m (BitVec.ofNat 16 c.1) c.2) []

end Sys2Proof.Machine
end

