-- ==== Sys2Proof/Machine/State.lean ====
section
/-! DEFINITION. The state of the core (10_state.md), the reasons a step can stop (none on this hardware), and
construction, the one initialisation event (70_reset_and_hazards.md R196). -/

namespace Sys2Proof.Machine

/-- Everything the spec gives the core, and four fields of the model's own (`cfg` carries the parameters of R5;
`portAnswers`, `portReads` and `portLog` carry the input and the output of a step, R72). -/
structure State where
  /-- A (R8). -/
  a : Byte
  /-- B (R8). -/
  b : Byte
  /-- C (R8). -/
  c : Byte
  /-- D (R8). -/
  d : Byte
  /-- E (R8). -/
  e : Byte
  /-- H (R8). -/
  h : Byte
  /-- L (R8). -/
  l : Byte
  /-- SP (R11). -/
  sp : Word
  /-- PC (R12). -/
  pc : Word
  /-- The flags (R15, R16); F is a view of them (R14). -/
  flags : Flags
  /-- A', F', B' to L' (R17). -/
  alt : AltBank
  /-- IX (R18). -/
  ix : Word
  /-- IY (R18). -/
  iy : Word
  /-- I, the interrupt vector register (R19). -/
  iReg : Byte
  /-- R, the refresh register, which no fetch increments (R19, D22). -/
  rReg : Byte
  /-- iff1 (R20). -/
  iff1 : Bool
  /-- iff2 (R20). -/
  iff2 : Bool
  /-- The tick counter, unbounded (R21, D24). -/
  ticks : Nat
  /-- Memory (R28). -/
  mem : Memory
  /-- The model's own: the host's answers to the next port reads, oldest first (R72, H6; log entry 5). -/
  portAnswers : List Byte
  /-- The model's own: how many port reads found `portAnswers` empty (log entry 5). -/
  portReads : Nat
  /-- The model's own: every port write (port, value) in program order, newest last (R37, D31; log entry 7). -/
  portLog : List (Word × Byte)
  /-- The construction parameters (R5), which no step changes (log entry 1). -/
  cfg : Params
  deriving DecidableEq, Repr

/-- The reasons the core could stop with a fault: there are none, in any state (60_exceptions.md R181: "A model has no
fault state for this core"). -/
inductive Fault
  deriving DecidableEq, Repr

/-- The reasons the model refuses an instruction. -/
inductive Refusal where
  /-- Raised by an arm of exec for an instruction that has no meaning yet. Safe: the machine stops where the hardware
  goes on. No arm raises it in this model. -/
  | notModelled (mnemonic : String)
  deriving DecidableEq, Repr

/-- Construction (R196): the parameters, RESET_PC, INIT_REGS and INIT_MEM, each any value (R7). f3, f5 and fN are false
in BASE (R16, R24); ticks is 0 (R25). -/
def State.construct (cfg : Params) (pc : Word) (regs : InitRegs) (cells : List Host.Cell) : State where
  a := regs.a
  b := regs.b
  c := regs.c
  d := regs.d
  e := regs.e
  h := regs.h
  l := regs.l
  sp := regs.sp
  pc := pc
  flags := match cfg.mode with
    | .base => { regs.flags with f3 := false, f5 := false, fN := false }
    | .ext => regs.flags
  alt := regs.alt
  ix := regs.ix
  iy := regs.iy
  iReg := regs.iReg
  rReg := regs.rReg
  iff1 := regs.iff1
  iff2 := regs.iff2
  ticks := 0
  mem := Memory.ofCells cells
  portAnswers := []
  portReads := 0
  portLog := []
  cfg := cfg

/-- The core right after construction, at the values Machine/ResetValues.lean names. -/
def State.reset : State := State.construct resetParams resetPc resetRegs resetCells

end Sys2Proof.Machine
end

