-- ==== Sys2Proof/Machine/Ops.lean ====
section
/-! DEFINITION. The named operations over memory, the bus, the stack, the ports, PC and ticks. The core takes no
exception and returns from none (60_exceptions.md R183, R184), so there is no such operation here. -/

namespace Sys2Proof.Machine

/-! ## The bus (20_memory.md, sections 2 and 3) -/

/-- `WINDOW_LO <= a <= WINDOW_HI` (R33). -/
def inWindow (p : Params) (a : Word) : Bool := decide (p.windowLo ≤ a ∧ a ≤ p.windowHi)

/-- `a & 3`, the offset within a 4-byte stride (R33). -/
def strideOf (a : Word) : Nat := a.toNat % 4

/-- `p[k]` (R33). -/
def patternByte (p : Pattern) (k : Nat) : Byte :=
  match k with
  | 0 => p.p0
  | 1 => p.p1
  | 2 => p.p2
  | _ => p.p3

/-- `PPI_CONTROL(v)` (R33). -/
def ppiControl (p : Params) (v : Byte) : Option Pattern := (p.ppiControl.find? (fun e => e.1 == v)).map (·.2)

/-- `MemWrite(addr, 1, v)` over a memory, its four cases in the order the spec gives (R31 to R34). -/
def busWrite (p : Params) (m : Memory) (a : Word) (v : Byte) : Memory :=
  if a < p.romBoundary then Memory.write m a v
  else if inWindow p a then
    match (if strideOf a = 3 then ppiControl p v else none) with
    | some pat => Memory.fill m p.windowLo p.windowHi (fun w => patternByte pat (strideOf w))
    | none =>
      match p.windowDataWrite with
      | .discard => m
      | .store => Memory.write m a v
      | .storeReplicated =>
        Memory.fill m p.windowLo p.windowHi (fun w => if strideOf w = strideOf a then v else Memory.read m w)
  else m

/-- `MemRead(addr, 1)` (R30). -/
def State.memRead (s : State) (a : Word) : Byte := Memory.read s.mem a

/-- `MemWrite(addr, 1, v)` (R31 to R35). -/
def State.memWrite (s : State) (a : Word) (v : Byte) : State := { s with mem := busWrite s.cfg s.mem a v }

/-- `MemRead(addr, 2)`: little-endian, the second address wraps (R38, R39). -/
def State.memRead16 (s : State) (a : Word) : Word := wordOf (s.memRead (a + 1)) (s.memRead a)

/-- `MemWrite(addr, 2, v)`: the low byte first (R38, R39). -/
def State.memWrite16 (s : State) (a : Word) (v : Word) : State :=
  (s.memWrite a (loByte v)).memWrite (a + 1) (hiByte v)

/-! ## The stack (46_stack_io_control.md R160) -/

/-- `Push16(v)`: the high byte at SP-1, then the low byte at SP-2. -/
def State.push16 (s : State) (v : Word) : State :=
  let s := { s with sp := s.sp - 1 }
  let s := s.memWrite s.sp (hiByte v)
  let s := { s with sp := s.sp - 1 }
  s.memWrite s.sp (loByte v)

/-- The word `Pop16()` returns: the low byte at SP, the high byte at SP+1. -/
def State.popValue (s : State) : Word := wordOf (s.memRead (s.sp + 1)) (s.memRead s.sp)

/-- The state after `Pop16()`: SP has moved up by 2. -/
def State.popped (s : State) : State := { s with sp := s.sp + 1 + 1 }

/-! ## The ports (20_memory.md section 4) -/

/-- `PORT_ADDRESS(n, A)` (R37, D16). -/
def portAddress (p : Params) (n a : Byte) : Word :=
  match p.portAddressing with
  | .zeroExtended => BitVec.setWidth 16 n
  | .accumulatorHigh => wordOf a n
  | .other k => Config.portAddress k n a

/-- The byte `PortRead(p)` answers: the host's oldest listed answer, else a free value (R36, R72, D17; log entry 5). -/
def State.portAnswer (s : State) (p : Word) : Byte :=
  match s.portAnswers with
  | v :: _ => v
  | [] => Config.portAnswer s.portReads p

/-- The state after a `PortRead`: the answer is used up. Registers, flags and memory are as before (R36). -/
def State.portReadDone (s : State) : State :=
  match s.portAnswers with
  | _ :: rest => { s with portAnswers := rest }
  | [] => { s with portReads := s.portReads + 1 }

/-- `PortWrite(p, v)`: the event is recorded, newest last (R37, D31; log entry 7). -/
def State.portWrite (s : State) (p : Word) (v : Byte) : State := { s with portLog := s.portLog ++ [(p, v)] }

/-! ## PC and ticks (40_execution_driver.md R67, R68) -/

/-- What an instruction costs: the entry of its opcode in the configured mode's table, taken or not (R68). -/
def State.cost (s : State) (i : Instr) (taken : Bool) : Nat :=
  if taken then (tickEntry s.cfg i.opcode).1 else (tickEntry s.cfg i.opcode).2

/-- The end of a sequential instruction: `pc <- pc + len`, `ticks <- ticks + cost`. -/
def State.advance (s : State) (i : Instr) (len : Word) : State :=
  { s with
    pc := s.pc + len
    ticks := s.ticks + s.cost i true }

/-- The end of a conditional transfer that is not taken: `pc <- pc + len`, `ticks <- ticks + cost`. -/
def State.fallThrough (s : State) (i : Instr) (len : Word) : State :=
  { s with
    pc := s.pc + len
    ticks := s.ticks + s.cost i false }

/-- The end of a taken transfer: `pc <- target`, `ticks <- ticks + cost`. -/
def State.jumpTo (s : State) (i : Instr) (target : Word) : State :=
  { s with
    pc := target
    ticks := s.ticks + s.cost i true }

end Sys2Proof.Machine
end

