-- ==== Sys2Proof/Machine/Operands.lean ====
section
/-! DEFINITION. The operand forms: registers, pair views, the byte at HL, the accumulator with its flags, conditions and
relative targets (10_state.md R9, R10, R13; 30_encoding.md R53 to R56). -/

namespace Sys2Proof.Machine

/-! ## Registers and pairs -/

/-- `r8(i)` for a register slot (R53). -/
def State.reg (s : State) : Reg → Byte
  | .b => s.b
  | .c => s.c
  | .d => s.d
  | .e => s.e
  | .h => s.h
  | .l => s.l
  | .a => s.a

/-- `r8(i) <- v` for a register slot (R53). -/
def State.setReg (s : State) (r : Reg) (v : Byte) : State :=
  match r with
  | .b => { s with b := v }
  | .c => { s with c := v }
  | .d => { s with d := v }
  | .e => { s with e := v }
  | .h => { s with h := v }
  | .l => { s with l := v }
  | .a => { s with a := v }

/-- BC = B:C (R9). -/
def State.bc (s : State) : Word := wordOf s.b s.c

/-- DE = D:E (R9). -/
def State.de (s : State) : Word := wordOf s.d s.e

/-- HL = H:L (R9). -/
def State.hl (s : State) : Word := wordOf s.h s.l

/-- `writePair(BC, w)` (R10). -/
def State.setBc (s : State) (w : Word) : State :=
  { s with
    b := hiByte w
    c := loByte w }

/-- `writePair(DE, w)` (R10). -/
def State.setDe (s : State) (w : Word) : State :=
  { s with
    d := hiByte w
    e := loByte w }

/-- `writePair(HL, w)` (R10). -/
def State.setHl (s : State) (w : Word) : State :=
  { s with
    h := hiByte w
    l := loByte w }

/-- `rp(i)` (R54). -/
def State.pair (s : State) : RegPair → Word
  | .bc => s.bc
  | .de => s.de
  | .hl => s.hl
  | .sp => s.sp

/-- `rp(i) <- w` (R54). -/
def State.setPair (s : State) (p : RegPair) (w : Word) : State :=
  match p with
  | .bc => s.setBc w
  | .de => s.setDe w
  | .hl => s.setHl w
  | .sp => { s with sp := w }

/-- `rp2(i)` without AF (R54). -/
def State.stackPair (s : State) : StackPair → Word
  | .bc => s.bc
  | .de => s.de
  | .hl => s.hl

/-- `rp2(i) <- w` without AF (R54). -/
def State.setStackPair (s : State) (p : StackPair) (w : Word) : State :=
  match p with
  | .bc => s.setBc w
  | .de => s.setDe w
  | .hl => s.setHl w

/-- The address of LDAX and STAX (R110, R111). -/
def State.addrPair (s : State) : AddrPair → Word
  | .bc => s.bc
  | .de => s.de

/-! ## The byte at HL -/

/-- M: the byte at HL (R53). -/
def State.memHl (s : State) : Byte := s.memRead s.hl

/-- `M <- v`, through the bus policy (R53, R35). -/
def State.setMemHl (s : State) (v : Byte) : State := s.memWrite s.hl v

/-! ## The accumulator and the flags -/

/-- Write an ALU function's result to A and its flags to the flags. -/
def State.setAcc (s : State) (x : Byte × Flags) : State :=
  { s with
    a := x.1
    flags := x.2 }

/-! ## Conditions and relative targets -/

/-- `cond(c)`: the table of R56. -/
def condHolds (f : Flags) : Cond → Bool
  | .nz => !f.fZ
  | .z => f.fZ
  | .nc => !f.fC
  | .c => f.fC
  | .po => !f.fP
  | .pe => f.fP
  | .p => !f.fS
  | .m => f.fS

/-- `cond(CC2)` of JR cc (R94, R177). -/
def jrCondHolds (f : Flags) : JrCond → Bool
  | .nz => condHolds f .nz
  | .z => condHolds f .z
  | .nc => condHolds f .nc
  | .c => condHolds f .c

/-- `pc + 2 + sdisp(d)` (47_extended_mode.md section 2, D27). -/
def State.relTarget (s : State) (d : Byte) : Word := s.pc + 2 + BitVec.ofInt 16 (sdisp d)

/-- The address RST n goes to, `8 * n` (R44, R158). -/
def rstTarget (n : BitVec 3) : Word := BitVec.ofNat 16 (8 * n.toNat)

end Sys2Proof.Machine
end

