-- ==== Sys2Proof/Machine/Arith.lean ====
section
/-! DEFINITION. The arithmetic instructions. One meaning per instruction, each citing its rule of 43_arithmetic.md. -/

namespace Sys2Proof.Machine

/-- ADD, `A <- add8(A, x, 0)`: r (R113). -/
def execAddR (src : Reg) (s : State) : Host.Outcome State Fault Refusal :=
  .next ((s.setAcc (add8 s.cfg.flagRules s.flags s.a (s.reg src) false)).advance (.addR src) 1)

/-- ADD, `A <- add8(A, x, 0)`: M (R114). -/
def execAddM (s : State) : Host.Outcome State Fault Refusal :=
  .next ((s.setAcc (add8 s.cfg.flagRules s.flags s.a s.memHl false)).advance .addM 1)

/-- ADD, `A <- add8(A, x, 0)`: d8 (R115). -/
def execAdi (v : Byte) (s : State) : Host.Outcome State Fault Refusal :=
  .next ((s.setAcc (add8 s.cfg.flagRules s.flags s.a v false)).advance (.adi v) 2)

/-- ADC, `A <- add8(A, x, fC)`: r (R116). -/
def execAdcR (src : Reg) (s : State) : Host.Outcome State Fault Refusal :=
  .next ((s.setAcc (add8 s.cfg.flagRules s.flags s.a (s.reg src) s.flags.fC)).advance (.adcR src) 1)

/-- ADC, `A <- add8(A, x, fC)`: M (R117). -/
def execAdcM (s : State) : Host.Outcome State Fault Refusal :=
  .next ((s.setAcc (add8 s.cfg.flagRules s.flags s.a s.memHl s.flags.fC)).advance .adcM 1)

/-- ADC, `A <- add8(A, x, fC)`: d8 (R118). -/
def execAci (v : Byte) (s : State) : Host.Outcome State Fault Refusal :=
  .next ((s.setAcc (add8 s.cfg.flagRules s.flags s.a v s.flags.fC)).advance (.aci v) 2)

/-- SUB, `A <- sub8(A, x, 0)`: r (R119). -/
def execSubR (src : Reg) (s : State) : Host.Outcome State Fault Refusal :=
  .next ((s.setAcc (sub8 s.cfg.flagRules s.flags s.a (s.reg src) false)).advance (.subR src) 1)

/-- SUB, `A <- sub8(A, x, 0)`: M (R120). -/
def execSubM (s : State) : Host.Outcome State Fault Refusal :=
  .next ((s.setAcc (sub8 s.cfg.flagRules s.flags s.a s.memHl false)).advance .subM 1)

/-- SUB, `A <- sub8(A, x, 0)`: d8 (R121). -/
def execSui (v : Byte) (s : State) : Host.Outcome State Fault Refusal :=
  .next ((s.setAcc (sub8 s.cfg.flagRules s.flags s.a v false)).advance (.sui v) 2)

/-- SBB, `A <- sub8(A, x, fC)`: r (R122). -/
def execSbbR (src : Reg) (s : State) : Host.Outcome State Fault Refusal :=
  .next ((s.setAcc (sub8 s.cfg.flagRules s.flags s.a (s.reg src) s.flags.fC)).advance (.sbbR src) 1)

/-- SBB, `A <- sub8(A, x, fC)`: M (R123). -/
def execSbbM (s : State) : Host.Outcome State Fault Refusal :=
  .next ((s.setAcc (sub8 s.cfg.flagRules s.flags s.a s.memHl s.flags.fC)).advance .sbbM 1)

/-- SBB, `A <- sub8(A, x, fC)`: d8 (R124). -/
def execSbi (v : Byte) (s : State) : Host.Outcome State Fault Refusal :=
  .next ((s.setAcc (sub8 s.cfg.flagRules s.flags s.a v s.flags.fC)).advance (.sbi v) 2)

/-- INR r: fC is kept (R125). -/
def execInrR (dst : Reg) (s : State) : Host.Outcome State Fault Refusal :=
  let x := inc8 s.cfg.flagRules s.flags (s.reg dst)
  .next ((State.setReg { s with flags := x.2 } dst x.1).advance (.inrR dst) 1)

/-- INR M: reads M, then writes M through the bus policy (R126). -/
def execInrM (s : State) : Host.Outcome State Fault Refusal :=
  let x := inc8 s.cfg.flagRules s.flags s.memHl
  .next ((State.setMemHl { s with flags := x.2 } x.1).advance .inrM 1)

/-- DCR r: fC is kept (R127). -/
def execDcrR (dst : Reg) (s : State) : Host.Outcome State Fault Refusal :=
  let x := dec8 s.cfg.flagRules s.flags (s.reg dst)
  .next ((State.setReg { s with flags := x.2 } dst x.1).advance (.dcrR dst) 1)

/-- DCR M: reads M, then writes M through the bus policy (R128). -/
def execDcrM (s : State) : Host.Outcome State Fault Refusal :=
  let x := dec8 s.cfg.flagRules s.flags s.memHl
  .next ((State.setMemHl { s with flags := x.2 } x.1).advance .dcrM 1)

/-- INX rp (R129). -/
def execInx (p : RegPair) (s : State) : Host.Outcome State Fault Refusal :=
  .next ((s.setPair p (s.pair p + 1)).advance (.inx p) 1)

/-- DCX rp (R130). -/
def execDcx (p : RegPair) (s : State) : Host.Outcome State Fault Refusal :=
  .next ((s.setPair p (s.pair p - 1)).advance (.dcx p) 1)

/-- DAD rp (R131). -/
def execDad (p : RegPair) (s : State) : Host.Outcome State Fault Refusal :=
  let x := add16 s.cfg.flagRules s.flags s.hl (s.pair p)
  .next ((State.setHl { s with flags := x.2 } x.1).advance (.dad p) 1)

/-- DAA (R132). -/
def execDaa (s : State) : Host.Outcome State Fault Refusal :=
  .next ((s.setAcc (daa8 s.cfg.flagRules s.flags s.a)).advance .daa 1)

end Sys2Proof.Machine
end

