-- ==== Sys2Proof/Machine/Branch.lean ====
section
/-! DEFINITION. The jump, call, return and restart instructions. None writes a flag. One meaning per instruction, each citing its rule of 45_branch.md. -/

namespace Sys2Proof.Machine

/-- JMP a16 (R152). -/
def execJmp (w : Word) (s : State) : Host.Outcome State Fault Refusal :=
  .next (s.jumpTo (.jmp w) w)

/-- JMP a16 under its BASE duplicate 0xCB (R59) (R152). -/
def execJmpAlias (w : Word) (s : State) : Host.Outcome State Fault Refusal :=
  .next (s.jumpTo (.jmpAlias w) w)

/-- Jcc a16: both outcomes cost 10 (D26) (R153). -/
def execJcc (cc : Cond) (w : Word) (s : State) : Host.Outcome State Fault Refusal :=
  if condHolds s.flags cc then .next (s.jumpTo (.jcc cc w) w) else .next (s.fallThrough (.jcc cc w) 3)

/-- CALL a16 (R154). -/
def execCall (w : Word) (s : State) : Host.Outcome State Fault Refusal :=
  .next ((s.push16 (s.pc + 3)).jumpTo (.call w) w)

/-- CALL a16 under its BASE duplicates 0xDD, 0xED, 0xFD (R59) (R154). -/
def execCallAlias (k : BitVec 2) (w : Word) (s : State) : Host.Outcome State Fault Refusal :=
  .next ((s.push16 (s.pc + 3)).jumpTo (.callAlias k w) w)

/-- Ccc a16: no stack access when not taken (R155). -/
def execCcc (cc : Cond) (w : Word) (s : State) : Host.Outcome State Fault Refusal :=
  if condHolds s.flags cc then .next ((s.push16 (s.pc + 3)).jumpTo (.ccc cc w) w) else .next (s.fallThrough (.ccc cc w) 3)

/-- RET (R156). -/
def execRet (s : State) : Host.Outcome State Fault Refusal :=
  .next (s.popped.jumpTo .ret s.popValue)

/-- RET under its BASE duplicate 0xD9 (R59) (R156). -/
def execRetAlias (s : State) : Host.Outcome State Fault Refusal :=
  .next (s.popped.jumpTo .retAlias s.popValue)

/-- Rcc: no stack access when not taken (R157). -/
def execRcc (cc : Cond) (s : State) : Host.Outcome State Fault Refusal :=
  if condHolds s.flags cc then .next (s.popped.jumpTo (.rcc cc) s.popValue) else .next (s.fallThrough (.rcc cc) 1)

/-- RST n, only a software call (R188) (R158). -/
def execRst (n : BitVec 3) (s : State) : Host.Outcome State Fault Refusal :=
  .next ((s.push16 (s.pc + 1)).jumpTo (.rst n) (rstTarget n))

/-- PCHL (R159). -/
def execPchl (s : State) : Host.Outcome State Fault Refusal :=
  .next (s.jumpTo .pchl s.hl)

end Sys2Proof.Machine
end

