-- ==== Sys2Proof/Machine/Extended.lean ====
section
/-! DEFINITION. The EXT-only instructions. The dispatch table of BASE does not hold them (R58). One meaning per instruction, each citing its rule of 47_extended_mode.md. -/

namespace Sys2Proof.Machine

/-- EX AF,AF': `swapAF()`, through pack and unpack (D30) (R173). -/
def execExAfAf (s : State) : Host.Outcome State Fault Refusal :=
  let f := packFlags s.cfg.mode s.flags
  let t := s.setAcc (s.alt.a, unpackFlags s.cfg.mode s.flags s.alt.f)
  .next (State.advance { t with alt := { s.alt with a := s.a, f := f } } .exAfAf 1)

/-- EXX: `swapBank()`; A' and F' are untouched (R174). -/
def execExx (s : State) : Host.Outcome State Fault Refusal :=
  .next (State.advance
    { s with
      b := s.alt.b
      c := s.alt.c
      d := s.alt.d
      e := s.alt.e
      h := s.alt.h
      l := s.alt.l
      alt := { s.alt with b := s.b, c := s.c, d := s.d, e := s.e, h := s.h, l := s.l } }
    .exx 1)

/-- DJNZ e: tests the new B and writes no flag (R175). -/
def execDjnz (d : Byte) (s : State) : Host.Outcome State Fault Refusal :=
  if s.b - 1 = 0 then .next ((s.setReg .b (s.b - 1)).fallThrough (.djnz d) 2)
  else .next ((s.setReg .b (s.b - 1)).jumpTo (.djnz d) (s.relTarget d))

/-- JR e (R176). -/
def execJr (d : Byte) (s : State) : Host.Outcome State Fault Refusal :=
  .next (s.jumpTo (.jr d) (s.relTarget d))

/-- JR cc,e (R177). -/
def execJrCc (cc : JrCond) (d : Byte) (s : State) : Host.Outcome State Fault Refusal :=
  if jrCondHolds s.flags cc then .next (s.jumpTo (.jrCc cc d) (s.relTarget d)) else .next (s.fallThrough (.jrCc cc d) 2)

/-- The byte 0xCB in EXT: a one-byte instruction with no further effect (R178). -/
def execPrefixCB (s : State) : Host.Outcome State Fault Refusal :=
  .next (s.advance .prefixCB 1)

/-- The byte 0xDD in EXT: a one-byte instruction with no further effect (R178). -/
def execPrefixDD (s : State) : Host.Outcome State Fault Refusal :=
  .next (s.advance .prefixDD 1)

/-- The byte 0xED in EXT: a one-byte instruction with no further effect (R178). -/
def execPrefixED (s : State) : Host.Outcome State Fault Refusal :=
  .next (s.advance .prefixED 1)

/-- The byte 0xFD in EXT: a one-byte instruction with no further effect (R178). -/
def execPrefixFD (s : State) : Host.Outcome State Fault Refusal :=
  .next (s.advance .prefixFD 1)

end Sys2Proof.Machine
end

