-- ==== Sys2Proof/Machine/Logic.lean ====
section
/-! DEFINITION. The logical, compare, rotate and flag instructions. One meaning per instruction, each citing its rule of 44_logical_rotate.md. -/

namespace Sys2Proof.Machine

/-- ANA, `A <- and8(A, x)`: r (R133). -/
def execAnaR (src : Reg) (s : State) : Host.Outcome State Fault Refusal :=
  .next ((s.setAcc (and8 s.cfg.flagRules s.flags s.a (s.reg src))).advance (.anaR src) 1)

/-- ANA, `A <- and8(A, x)`: M (R134). -/
def execAnaM (s : State) : Host.Outcome State Fault Refusal :=
  .next ((s.setAcc (and8 s.cfg.flagRules s.flags s.a s.memHl)).advance .anaM 1)

/-- ANA, `A <- and8(A, x)`: d8 (R135). -/
def execAni (v : Byte) (s : State) : Host.Outcome State Fault Refusal :=
  .next ((s.setAcc (and8 s.cfg.flagRules s.flags s.a v)).advance (.ani v) 2)

/-- XRA, `A <- xor8(A, x)`: r (R136). -/
def execXraR (src : Reg) (s : State) : Host.Outcome State Fault Refusal :=
  .next ((s.setAcc (xor8 s.cfg.flagRules s.flags s.a (s.reg src))).advance (.xraR src) 1)

/-- XRA, `A <- xor8(A, x)`: M (R137). -/
def execXraM (s : State) : Host.Outcome State Fault Refusal :=
  .next ((s.setAcc (xor8 s.cfg.flagRules s.flags s.a s.memHl)).advance .xraM 1)

/-- XRA, `A <- xor8(A, x)`: d8 (R138). -/
def execXri (v : Byte) (s : State) : Host.Outcome State Fault Refusal :=
  .next ((s.setAcc (xor8 s.cfg.flagRules s.flags s.a v)).advance (.xri v) 2)

/-- ORA, `A <- or8(A, x)`: r (R139). -/
def execOraR (src : Reg) (s : State) : Host.Outcome State Fault Refusal :=
  .next ((s.setAcc (or8 s.cfg.flagRules s.flags s.a (s.reg src))).advance (.oraR src) 1)

/-- ORA, `A <- or8(A, x)`: M (R140). -/
def execOraM (s : State) : Host.Outcome State Fault Refusal :=
  .next ((s.setAcc (or8 s.cfg.flagRules s.flags s.a s.memHl)).advance .oraM 1)

/-- ORA, `A <- or8(A, x)`: d8 (R141). -/
def execOri (v : Byte) (s : State) : Host.Outcome State Fault Refusal :=
  .next ((s.setAcc (or8 s.cfg.flagRules s.flags s.a v)).advance (.ori v) 2)

/-- CMP r: A is unchanged (R142). -/
def execCmpR (src : Reg) (s : State) : Host.Outcome State Fault Refusal :=
  .next (State.advance { s with flags := cmp8 s.cfg.flagRules s.flags s.a (s.reg src) } (.cmpR src) 1)

/-- CMP M: A is unchanged (R143). -/
def execCmpM (s : State) : Host.Outcome State Fault Refusal :=
  .next (State.advance { s with flags := cmp8 s.cfg.flagRules s.flags s.a s.memHl } .cmpM 1)

/-- CPI d8: A is unchanged (R144). -/
def execCpi (v : Byte) (s : State) : Host.Outcome State Fault Refusal :=
  .next (State.advance { s with flags := cmp8 s.cfg.flagRules s.flags s.a v } (.cpi v) 2)

/-- RLC (R145). -/
def execRlc (s : State) : Host.Outcome State Fault Refusal :=
  .next ((s.setAcc (rlc8 s.cfg.flagRules s.flags s.a)).advance .rlc 1)

/-- RRC (R146). -/
def execRrc (s : State) : Host.Outcome State Fault Refusal :=
  .next ((s.setAcc (rrc8 s.cfg.flagRules s.flags s.a)).advance .rrc 1)

/-- RAL (R147). -/
def execRal (s : State) : Host.Outcome State Fault Refusal :=
  .next ((s.setAcc (ral8 s.cfg.flagRules s.flags s.a)).advance .ral 1)

/-- RAR (R148). -/
def execRar (s : State) : Host.Outcome State Fault Refusal :=
  .next ((s.setAcc (rar8 s.cfg.flagRules s.flags s.a)).advance .rar 1)

/-- CMA (R149). -/
def execCma (s : State) : Host.Outcome State Fault Refusal :=
  .next ((s.setAcc (~~~s.a, cmaFlags s.cfg.flagRules s.flags s.a)).advance .cma 1)

/-- CMC (R150). -/
def execCmc (s : State) : Host.Outcome State Fault Refusal :=
  .next (State.advance { s with flags := cmcFlags s.cfg.flagRules s.flags s.a } .cmc 1)

/-- STC (R151). -/
def execStc (s : State) : Host.Outcome State Fault Refusal :=
  .next (State.advance { s with flags := stcFlags s.cfg.flagRules s.flags s.a } .stc 1)

end Sys2Proof.Machine
end

