-- ==== Sys2Proof/Machine/StackIo.lean ====
section
/-! DEFINITION. The stack, input/output and machine-control instructions. None writes a flag but POP PSW. One meaning per instruction, each citing its rule of 46_stack_io_control.md. -/

namespace Sys2Proof.Machine

/-- PUSH rp (R161). -/
def execPush (p : StackPair) (s : State) : Host.Outcome State Fault Refusal :=
  .next ((s.push16 (s.stackPair p)).advance (.push p) 1)

/-- PUSH PSW (R162). -/
def execPushPsw (s : State) : Host.Outcome State Fault Refusal :=
  .next ((s.push16 (wordOf s.a (packFlags s.cfg.mode s.flags))).advance .pushPsw 1)

/-- POP rp (R163). -/
def execPop (p : StackPair) (s : State) : Host.Outcome State Fault Refusal :=
  .next ((s.popped.setStackPair p s.popValue).advance (.pop p) 1)

/-- POP PSW (R164). -/
def execPopPsw (s : State) : Host.Outcome State Fault Refusal :=
  .next ((s.popped.setAcc (hiByte s.popValue, unpackFlags s.cfg.mode s.flags (loByte s.popValue))).advance .popPsw 1)

/-- XTHL: both reads, then both writes; SP is unchanged (R165). -/
def execXthl (s : State) : Host.Outcome State Fault Refusal :=
  .next (((s.memWrite16 s.sp s.hl).setHl (s.memRead16 s.sp)).advance .xthl 1)

/-- SPHL (R166). -/
def execSphl (s : State) : Host.Outcome State Fault Refusal :=
  .next ((s.setPair .sp s.hl).advance .sphl 1)

/-- IN d8 (R167). -/
def execInPort (v : Byte) (s : State) : Host.Outcome State Fault Refusal :=
  .next ((s.portReadDone.setReg .a (s.portAnswer (portAddress s.cfg v s.a))).advance (.inPort v) 2)

/-- OUT d8 (R168). -/
def execOutPort (v : Byte) (s : State) : Host.Outcome State Fault Refusal :=
  .next ((s.portWrite (portAddress s.cfg v s.a) s.a).advance (.outPort v) 2)

/-- EI, with no delay (R169). -/
def execEi (s : State) : Host.Outcome State Fault Refusal :=
  .next (State.advance { s with iff1 := true, iff2 := true } .ei 1)

/-- DI (R170). -/
def execDi (s : State) : Host.Outcome State Fault Refusal :=
  .next (State.advance { s with iff1 := false, iff2 := false } .di 1)

/-- HLT: ticks only, unless HALT_ADVANCES_PC (D8) (R171). -/
def execHlt (s : State) : Host.Outcome State Fault Refusal :=
  if s.cfg.haltAdvancesPc then .next (s.advance .hlt 1) else .next (s.advance .hlt 0)

/-- NOP (R172). -/
def execNop (s : State) : Host.Outcome State Fault Refusal :=
  .next (s.advance .nop 1)

/-- NOP under its BASE duplicates 0x08 to 0x38 (R59) (R172). -/
def execNopAlias (k : BitVec 3) (s : State) : Host.Outcome State Fault Refusal :=
  .next (s.advance (.nopAlias k) 1)

end Sys2Proof.Machine
end

