-- ==== Sys2Proof/Machine/Transfer.lean ====
section
/-! DEFINITION. The data transfer instructions. None writes a flag. One meaning per instruction, each citing its rule of 42_data_transfer.md. -/

namespace Sys2Proof.Machine

/-- MOV r,r': `r8(d) <- r8(s)` (R100). -/
def execMovRR (dst src : Reg) (s : State) : Host.Outcome State Fault Refusal :=
  .next ((s.setReg dst (s.reg src)).advance (.movRR dst src) 1)

/-- MOV r,M: the address is HL before the write (R101). -/
def execMovRM (dst : Reg) (s : State) : Host.Outcome State Fault Refusal :=
  .next ((s.setReg dst s.memHl).advance (.movRM dst) 1)

/-- MOV M,r (R102). -/
def execMovMR (src : Reg) (s : State) : Host.Outcome State Fault Refusal :=
  .next ((s.setMemHl (s.reg src)).advance (.movMR src) 1)

/-- MVI r,d8 (R103). -/
def execMviR (dst : Reg) (v : Byte) (s : State) : Host.Outcome State Fault Refusal :=
  .next ((s.setReg dst v).advance (.mviR dst v) 2)

/-- MVI M,d8 (R104). -/
def execMviM (v : Byte) (s : State) : Host.Outcome State Fault Refusal :=
  .next ((s.setMemHl v).advance (.mviM v) 2)

/-- LXI rp,d16 (R105). -/
def execLxi (p : RegPair) (w : Word) (s : State) : Host.Outcome State Fault Refusal :=
  .next ((s.setPair p w).advance (.lxi p w) 3)

/-- LDA a16 (R106). -/
def execLda (w : Word) (s : State) : Host.Outcome State Fault Refusal :=
  .next ((s.setReg .a (s.memRead w)).advance (.lda w) 3)

/-- STA a16 (R107). -/
def execSta (w : Word) (s : State) : Host.Outcome State Fault Refusal :=
  .next ((s.memWrite w s.a).advance (.sta w) 3)

/-- LHLD a16: L from the address, H from the next (R108). -/
def execLhld (w : Word) (s : State) : Host.Outcome State Fault Refusal :=
  .next ((s.setHl (s.memRead16 w)).advance (.lhld w) 3)

/-- SHLD a16: L first, then H (R109). -/
def execShld (w : Word) (s : State) : Host.Outcome State Fault Refusal :=
  .next ((s.memWrite16 w s.hl).advance (.shld w) 3)

/-- LDAX rp (R110). -/
def execLdax (p : AddrPair) (s : State) : Host.Outcome State Fault Refusal :=
  .next ((s.setReg .a (s.memRead (s.addrPair p))).advance (.ldax p) 1)

/-- STAX rp (R111). -/
def execStax (p : AddrPair) (s : State) : Host.Outcome State Fault Refusal :=
  .next ((s.memWrite (s.addrPair p) s.a).advance (.stax p) 1)

/-- XCHG: HL and DE exchange (R112). -/
def execXchg (s : State) : Host.Outcome State Fault Refusal :=
  .next (((s.setHl s.de).setDe s.hl).advance .xchg 1)

end Sys2Proof.Machine
end

