-- ==== Sys2Proof/Machine/Dispatch.lean ====
section
/-! DEFINITION. exec: one arm per instruction, each one call of its meaning. -/

namespace Sys2Proof.Machine

def exec (i : Instr) (s : State) : Host.Outcome State Fault Refusal :=
  match i with
  | .movRR dst src => Sys2Proof.Machine.execMovRR dst src s
  | .movRM dst => Sys2Proof.Machine.execMovRM dst s
  | .movMR src => Sys2Proof.Machine.execMovMR src s
  | .mviR dst v => Sys2Proof.Machine.execMviR dst v s
  | .mviM v => Sys2Proof.Machine.execMviM v s
  | .lxi p w => Sys2Proof.Machine.execLxi p w s
  | .lda w => Sys2Proof.Machine.execLda w s
  | .sta w => Sys2Proof.Machine.execSta w s
  | .lhld w => Sys2Proof.Machine.execLhld w s
  | .shld w => Sys2Proof.Machine.execShld w s
  | .ldax p => Sys2Proof.Machine.execLdax p s
  | .stax p => Sys2Proof.Machine.execStax p s
  | .xchg => Sys2Proof.Machine.execXchg s
  | .addR src => Sys2Proof.Machine.execAddR src s
  | .addM => Sys2Proof.Machine.execAddM s
  | .adi v => Sys2Proof.Machine.execAdi v s
  | .adcR src => Sys2Proof.Machine.execAdcR src s
  | .adcM => Sys2Proof.Machine.execAdcM s
  | .aci v => Sys2Proof.Machine.execAci v s
  | .subR src => Sys2Proof.Machine.execSubR src s
  | .subM => Sys2Proof.Machine.execSubM s
  | .sui v => Sys2Proof.Machine.execSui v s
  | .sbbR src => Sys2Proof.Machine.execSbbR src s
  | .sbbM => Sys2Proof.Machine.execSbbM s
  | .sbi v => Sys2Proof.Machine.execSbi v s
  | .inrR dst => Sys2Proof.Machine.execInrR dst s
  | .inrM => Sys2Proof.Machine.execInrM s
  | .dcrR dst => Sys2Proof.Machine.execDcrR dst s
  | .dcrM => Sys2Proof.Machine.execDcrM s
  | .inx p => Sys2Proof.Machine.execInx p s
  | .dcx p => Sys2Proof.Machine.execDcx p s
  | .dad p => Sys2Proof.Machine.execDad p s
  | .daa => Sys2Proof.Machine.execDaa s
  | .anaR src => Sys2Proof.Machine.execAnaR src s
  | .anaM => Sys2Proof.Machine.execAnaM s
  | .ani v => Sys2Proof.Machine.execAni v s
  | .xraR src => Sys2Proof.Machine.execXraR src s
  | .xraM => Sys2Proof.Machine.execXraM s
  | .xri v => Sys2Proof.Machine.execXri v s
  | .oraR src => Sys2Proof.Machine.execOraR src s
  | .oraM => Sys2Proof.Machine.execOraM s
  | .ori v => Sys2Proof.Machine.execOri v s
  | .cmpR src => Sys2Proof.Machine.execCmpR src s
  | .cmpM => Sys2Proof.Machine.execCmpM s
  | .cpi v => Sys2Proof.Machine.execCpi v s
  | .rlc => Sys2Proof.Machine.execRlc s
  | .rrc => Sys2Proof.Machine.execRrc s
  | .ral => Sys2Proof.Machine.execRal s
  | .rar => Sys2Proof.Machine.execRar s
  | .cma => Sys2Proof.Machine.execCma s
  | .cmc => Sys2Proof.Machine.execCmc s
  | .stc => Sys2Proof.Machine.execStc s
  | .jmp w => Sys2Proof.Machine.execJmp w s
  | .jmpAlias w => Sys2Proof.Machine.execJmpAlias w s
  | .jcc cc w => Sys2Proof.Machine.execJcc cc w s
  | .call w => Sys2Proof.Machine.execCall w s
  | .callAlias k w => Sys2Proof.Machine.execCallAlias k w s
  | .ccc cc w => Sys2Proof.Machine.execCcc cc w s
  | .ret => Sys2Proof.Machine.execRet s
  | .retAlias => Sys2Proof.Machine.execRetAlias s
  | .rcc cc => Sys2Proof.Machine.execRcc cc s
  | .rst n => Sys2Proof.Machine.execRst n s
  | .pchl => Sys2Proof.Machine.execPchl s
  | .push p => Sys2Proof.Machine.execPush p s
  | .pushPsw => Sys2Proof.Machine.execPushPsw s
  | .pop p => Sys2Proof.Machine.execPop p s
  | .popPsw => Sys2Proof.Machine.execPopPsw s
  | .xthl => Sys2Proof.Machine.execXthl s
  | .sphl => Sys2Proof.Machine.execSphl s
  | .inPort v => Sys2Proof.Machine.execInPort v s
  | .outPort v => Sys2Proof.Machine.execOutPort v s
  | .ei => Sys2Proof.Machine.execEi s
  | .di => Sys2Proof.Machine.execDi s
  | .hlt => Sys2Proof.Machine.execHlt s
  | .nop => Sys2Proof.Machine.execNop s
  | .nopAlias k => Sys2Proof.Machine.execNopAlias k s
  | .exAfAf => Sys2Proof.Machine.execExAfAf s
  | .exx => Sys2Proof.Machine.execExx s
  | .djnz d => Sys2Proof.Machine.execDjnz d s
  | .jr d => Sys2Proof.Machine.execJr d s
  | .jrCc cc d => Sys2Proof.Machine.execJrCc cc d s
  | .prefixCB => Sys2Proof.Machine.execPrefixCB s
  | .prefixDD => Sys2Proof.Machine.execPrefixDD s
  | .prefixED => Sys2Proof.Machine.execPrefixED s
  | .prefixFD => Sys2Proof.Machine.execPrefixFD s

end Sys2Proof.Machine
end

