-- ==== Sys2Proof/Machine/Fetch.lean ====
section
/-! DEFINITION. Fetching: the opcode at PC and its operand bytes at PC+1 and PC+2, through the bus read path
(40_execution_driver.md R65, R66, R69). -/

namespace Sys2Proof.Machine

/-- The instruction at PC, by the dispatch table of the configured mode. Reads have no side effect (R30), so reading
the operand bytes an instruction does not have changes nothing. -/
def State.fetch (s : State) : Instr :=
  decodeOpcode s.cfg.mode (s.memRead s.pc) (s.memRead (s.pc + 1)) (s.memRead (s.pc + 2))

/-- Store three bytes at PC, PC+1 and PC+2 as a loader does: a direct memory write, past the bus policy (R73, H4). -/
def State.placeBytes (s : State) (bs : List Byte) : State :=
  let m := Memory.write s.mem s.pc (bs.getD 0 0)
  let m := Memory.write m (s.pc + 1) (bs.getD 1 0)
  let m := Memory.write m (s.pc + 2) (bs.getD 2 0)
  { s with mem := m }

end Sys2Proof.Machine
end

