-- ==== Sys2Proof/Machine/Step.lean ====
section
/-! DEFINITION. The step of the execution driver: one instruction, fetched and executed (40_execution_driver.md R64). -/

namespace Sys2Proof.Machine

/-- `step()` (R66). -/
def step (s : State) : Host.Outcome State Fault Refusal := exec s.fetch s

/-- The state with the instruction of a table word stored where step fetches next. -/
def State.withFetchWord (s : State) (nbits w : Nat) : State := s.placeBytes (tableBytes nbits w)

end Sys2Proof.Machine
end

