-- ==== Sys2Proof/Machine/HostActions.lean ====
section
/-! DEFINITION. What the host can do between steps (40_execution_driver.md R73): the actions H2 to H6. H1 is step, and
H7 is the record State.portLog. -/

namespace Sys2Proof.Machine

/-- H2: read the tick counter. -/
def State.hostReadTicks (s : State) : Nat := s.ticks

/-- H3: reset the tick counter, and nothing else. -/
def State.hostResetTicks (s : State) : State := { s with ticks := 0 }

/-- H4: write memory directly, past the bus policy of R31 to R34. -/
def State.hostWriteMem (s : State) (a : Word) (v : Byte) : State := { s with mem := Memory.write s.mem a v }

/-- H5: read a byte of memory. -/
def State.hostReadMem (s : State) (a : Word) : Byte := Memory.read s.mem a

/-- H6: list one more answer, behind those already listed, to the port reads to come (R72). -/
def State.hostAnswerPort (s : State) (v : Byte) : State := { s with portAnswers := s.portAnswers ++ [v] }

/-- A host action that changes the state. -/
inductive HostAction where
  | resetTicks
  | writeMem (a : Word) (v : Byte)
  | answerPort (v : Byte)
  deriving DecidableEq, Repr

/-- The state after a host action between two steps. -/
def State.hostAct (s : State) : HostAction → State
  | .resetTicks => s.hostResetTicks
  | .writeMem a v => s.hostWriteMem a v
  | .answerPort v => s.hostAnswerPort v

end Sys2Proof.Machine
end

