-- ==== Sys2Proof/Safety.lean ====
section
/-! DEFINITION. What claims are stated in: the invariant, the parts of the state and which of them an instruction may
write (10_state.md R23, 41_alu_flag_engine.md R96), the bytes it offers to the bus, and the arithmetic of the ALU in
numbers. Every run is safe on this hardware: no step faults (60_exceptions.md R181). -/

namespace Sys2Proof.Machine

/-! ## The invariant -/

/-- Memory is in its canonical form, and the EXT flags are false in BASE (R16, D37). -/
abbrev State.Inv (s : State) : Prop :=
  s.mem.wf ∧ (s.cfg.mode = .base → s.flags.f3 = false ∧ s.flags.f5 = false ∧ s.flags.fN = false)

/-! ## Parts of the state -/

/-- The flags by name. -/
inductive FlagName where
  | fS | fZ | fH | fP | fC | f3 | f5 | fN
  deriving DecidableEq, Repr

/-- A flag's value. -/
def Flags.get (f : Flags) : FlagName → Bool
  | .fS => f.fS
  | .fZ => f.fZ
  | .fH => f.fH
  | .fP => f.fP
  | .fC => f.fC
  | .f3 => f.f3
  | .f5 => f.f5
  | .fN => f.fN

/-- An alternate register's value. -/
def AltBank.reg (x : AltBank) : Reg → Byte
  | .b => x.b
  | .c => x.c
  | .d => x.d
  | .e => x.e
  | .h => x.h
  | .l => x.l
  | .a => x.a

/-- The parts of the state but PC and ticks, which every step writes (R23). -/
inductive Part where
  | reg (r : Reg)
  | sp
  | flag (k : FlagName)
  | altReg (r : Reg)
  | altF
  | ix
  | iy
  | iReg
  | rReg
  | iff1
  | iff2
  | mem
  | portInput
  | portLog
  | cfg
  deriving DecidableEq, Repr

/-- The part is the same in both states; of memory, that every byte reads the same. -/
def Part.same (s t : State) : Part → Prop
  | .reg r => t.reg r = s.reg r
  | .sp => t.sp = s.sp
  | .flag k => t.flags.get k = s.flags.get k
  | .altReg r => t.alt.reg r = s.alt.reg r
  | .altF => t.alt.f = s.alt.f
  | .ix => t.ix = s.ix
  | .iy => t.iy = s.iy
  | .iReg => t.iReg = s.iReg
  | .rReg => t.rReg = s.rReg
  | .iff1 => t.iff1 = s.iff1
  | .iff2 => t.iff2 = s.iff2
  | .mem => ∀ w, t.memRead w = s.memRead w
  | .portInput => t.portAnswers = s.portAnswers ∧ t.portReads = s.portReads
  | .portLog => t.portLog = s.portLog
  | .cfg => t.cfg = s.cfg

/-- `t` differs from `s` in the listed parts, PC and ticks at most. -/
def ChangesOnly (ps : List Part) (s t : State) : Prop := ∀ p, p ∉ ps → Part.same s t p

/-- The flags R96 lists for an instruction in BASE, given those it lists beside them in EXT. -/
def flagParts (m : Mode) (base ext : List FlagName) : List Part :=
  match m with
  | .base => base.map Part.flag
  | .ext => (base ++ ext).map Part.flag

/-- The registers of a pair. -/
def pairParts : RegPair → List Part
  | .bc => [.reg .b, .reg .c]
  | .de => [.reg .d, .reg .e]
  | .hl => [.reg .h, .reg .l]
  | .sp => [.sp]

/-- The registers of a PUSH/POP pair. -/
def stackPairParts : StackPair → List Part
  | .bc => [.reg .b, .reg .c]
  | .de => [.reg .d, .reg .e]
  | .hl => [.reg .h, .reg .l]

/-- The flags an instruction writes, by the table of R96. -/
def flagsWritten (m : Mode) : Instr → List Part
  | .addR _ | .addM | .adi _ | .adcR _ | .adcM | .aci _ | .subR _ | .subM | .sui _ | .sbbR _ | .sbbM | .sbi _
  | .anaR _ | .anaM | .ani _ | .xraR _ | .xraM | .xri _ | .oraR _ | .oraM | .ori _
  | .cmpR _ | .cmpM | .cpi _ | .popPsw | .exAfAf => flagParts m [.fS, .fZ, .fH, .fP, .fC] [.f5, .f3, .fN]
  | .inrR _ | .inrM | .dcrR _ | .dcrM => flagParts m [.fS, .fZ, .fH, .fP] [.f5, .f3, .fN]
  | .rlc | .rrc | .ral | .rar | .dad _ | .stc | .cmc => flagParts m [.fC] [.fH, .f5, .f3, .fN]
  | .daa => flagParts m [.fS, .fZ, .fH, .fP, .fC] [.f5, .f3]
  | .cma => flagParts m [] [.fH, .f5, .f3, .fN]
  | .movRR _ _ | .movRM _ | .movMR _ | .mviR _ _ | .mviM _ | .lxi _ _ | .lda _ | .sta _ | .lhld _ | .shld _
  | .ldax _ | .stax _ | .xchg | .inx _ | .dcx _
  | .jmp _ | .jmpAlias _ | .jcc _ _ | .call _ | .callAlias _ _ | .ccc _ _ | .ret | .retAlias | .rcc _ | .rst _ | .pchl
  | .push _ | .pushPsw | .pop _ | .xthl | .sphl | .inPort _ | .outPort _ | .ei | .di | .hlt | .nop | .nopAlias _
  | .exx | .djnz _ | .jr _ | .jrCc _ _ | .prefixCB | .prefixDD | .prefixED | .prefixFD => []

/-- The parts but the flags that an instruction may write in state `s`, by the table of R23: Ccc and Rcc write SP when
taken. -/
def partsWritten (s : State) : Instr → List Part
  | .movRR dst _ | .movRM dst | .mviR dst _ | .inrR dst | .dcrR dst => [.reg dst]
  | .movMR _ | .mviM _ | .sta _ | .stax _ | .shld _ | .inrM | .dcrM => [.mem]
  | .lxi p _ | .inx p | .dcx p => pairParts p
  | .lda _ | .ldax _ => [.reg .a]
  | .lhld _ | .dad _ => [.reg .h, .reg .l]
  | .xchg => [.reg .d, .reg .e, .reg .h, .reg .l]
  | .addR _ | .addM | .adi _ | .adcR _ | .adcM | .aci _ | .subR _ | .subM | .sui _ | .sbbR _ | .sbbM | .sbi _
  | .anaR _ | .anaM | .ani _ | .xraR _ | .xraM | .xri _ | .oraR _ | .oraM | .ori _
  | .rlc | .rrc | .ral | .rar | .cma | .daa => [.reg .a]
  | .cmpR _ | .cmpM | .cpi _ | .cmc | .stc => []
  | .jmp _ | .jmpAlias _ | .jcc _ _ | .pchl => []
  | .call _ | .callAlias _ _ | .rst _ | .push _ | .pushPsw => [.sp, .mem]
  | .ccc cc _ => if condHolds s.flags cc then [.sp, .mem] else []
  | .ret | .retAlias => [.sp]
  | .rcc cc => if condHolds s.flags cc then [.sp] else []
  | .pop p => .sp :: stackPairParts p
  | .popPsw => [.sp, .reg .a]
  | .xthl => [.reg .h, .reg .l, .mem]
  | .sphl => [.sp]
  | .inPort _ => [.reg .a, .portInput]
  | .outPort _ => [.portLog]
  | .ei | .di => [.iff1, .iff2]
  | .hlt | .nop | .nopAlias _ | .prefixCB | .prefixDD | .prefixED | .prefixFD => []
  | .exAfAf => [.reg .a, .altReg .a, .altF]
  | .exx => [.reg .b, .reg .c, .reg .d, .reg .e, .reg .h, .reg .l, .altReg .b, .altReg .c, .altReg .d, .altReg .e,
      .altReg .h, .altReg .l]
  | .djnz _ => [.reg .b]
  | .jr _ | .jrCc _ _ => []

/-! ## Stores -/

/-- The two bytes of a push, high byte first (R160). -/
def pushStores (s : State) (v : Word) : List (Word × Byte) := [(s.sp - 1, hiByte v), (s.sp - 1 - 1, loByte v)]

/-- The (address, byte) pairs an instruction offers to the bus, in order, at the addresses its meaning computes (R35,
R42, R69). -/
def stores (s : State) : Instr → List (Word × Byte)
  | .movMR src => [(s.hl, s.reg src)]
  | .mviM v => [(s.hl, v)]
  | .sta w => [(w, s.a)]
  | .stax p => [(s.addrPair p, s.a)]
  | .shld w => [(w, s.l), (w + 1, s.h)]
  | .inrM => [(s.hl, s.memHl + 1)]
  | .dcrM => [(s.hl, s.memHl - 1)]
  | .call _ | .callAlias _ _ => pushStores s (s.pc + 3)
  | .ccc cc _ => if condHolds s.flags cc then pushStores s (s.pc + 3) else []
  | .rst _ => pushStores s (s.pc + 1)
  | .push p => pushStores s (s.stackPair p)
  | .pushPsw => [(s.sp - 1, s.a), (s.sp - 1 - 1, packFlags s.cfg.mode s.flags)]
  | .xthl => [(s.sp, s.l), (s.sp + 1, s.h)]
  | .movRR _ _ | .movRM _ | .mviR _ _ | .lxi _ _ | .lda _ | .lhld _ | .ldax _ | .xchg
  | .addR _ | .addM | .adi _ | .adcR _ | .adcM | .aci _ | .subR _ | .subM | .sui _ | .sbbR _ | .sbbM | .sbi _
  | .inrR _ | .dcrR _ | .inx _ | .dcx _ | .dad _ | .daa
  | .anaR _ | .anaM | .ani _ | .xraR _ | .xraM | .xri _ | .oraR _ | .oraM | .ori _ | .cmpR _ | .cmpM | .cpi _
  | .rlc | .rrc | .ral | .rar | .cma | .cmc | .stc
  | .jmp _ | .jmpAlias _ | .jcc _ _ | .ret | .retAlias | .rcc _ | .pchl
  | .pop _ | .popPsw | .sphl | .inPort _ | .outPort _ | .ei | .di | .hlt | .nop | .nopAlias _
  | .exAfAf | .exx | .djnz _ | .jr _ | .jrCc _ _ | .prefixCB | .prefixDD | .prefixED | .prefixFD => []

/-- The byte at `w` may change when `v` is offered to the bus at `a`: RAM changes at `a` alone, the ROM area nowhere,
and the window as R33 and R34 say. -/
def mayChange (p : Params) (a : Word) (v : Byte) (w : Word) : Prop :=
  if a < p.romBoundary then w = a
  else if inWindow p a = true then
    if a.toNat % 4 = 3 ∧ (ppiControl p v).isSome = true then inWindow p w = true
    else match p.windowDataWrite with
      | .discard => False
      | .store => w = a
      | .storeReplicated => inWindow p w = true ∧ w.toNat % 4 = a.toNat % 4
  else False

/-! ## Ticks -/

/-- TICKS_BASE and TICKS_EXT are the tables of R201 and R202, their decided values (D23). -/
abbrev DecidedTicks (p : Params) : Prop := p.ticksBase = decidedTicksBase ∧ p.ticksExt = decidedTicksExt

/-- Whether a conditional transfer goes to its target; true for every other instruction (R67, R68). -/
def branchTaken (s : State) : Instr → Bool
  | .jcc cc _ => condHolds s.flags cc
  | .ccc cc _ => condHolds s.flags cc
  | .rcc cc => condHolds s.flags cc
  | .jrCc cc _ => jrCondHolds s.flags cc
  | .djnz _ => s.b != 1
  | _ => true

/-- `t` has PC at `pc` and has paid, at the decided tick tables, the cost of `s`'s mode (R67, R68). -/
def EndsAt (s t : State) (pc : Word) (base ext : Nat) : Prop :=
  t.pc = pc ∧ (DecidedTicks s.cfg → t.ticks = s.ticks + (if s.cfg.mode = .base then base else ext))

/-! ## The ALU in numbers

Each relation says what the source fixes for every set of EXT flag rules, and under the Z80 rules the rest (D12). -/

/-- `r` and `g` are the result and the flags of `a + b + cin`: carries as comparisons of sums, the half-carry as the
carry out of the low nibble (Glossary, R77), EXT P as the sum of the signed readings leaving the signed range (R81). -/
def IsSum (m : FlagRules) (f : Flags) (a b : Byte) (cin : Bool) (r : Byte) (g : Flags) : Prop :=
  r.toNat = (a.toNat + b.toNat + cin.toNat) % 256
  ∧ (g.fS = true ↔ 128 ≤ r.toNat)
  ∧ (g.fZ = true ↔ r.toNat = 0)
  ∧ (g.fH = true ↔ 16 ≤ a.toNat % 16 + b.toNat % 16 + cin.toNat)
  ∧ (g.fC = true ↔ 256 ≤ a.toNat + b.toNat + cin.toNat)
  ∧ match m with
    | .base => (g.fP = true ↔ popcount r % 2 = 0) ∧ g.f3 = f.f3 ∧ g.f5 = f.f5 ∧ g.fN = f.fN
    | .ext x => x = .z80 →
      (g.fP = true ↔ a.toInt + b.toInt + (cin.toNat : Int) < -128 ∨ 127 < a.toInt + b.toInt + (cin.toNat : Int))
      ∧ g.f3 = r.getLsbD 3 ∧ g.f5 = r.getLsbD 5 ∧ g.fN = false

/-- `r` and `g` are the result and the flags of `a - b - bin`, f3 and f5 apart in EXT: fC is the borrow (R80); fH is the
half-borrow in EXT and its inverse in BASE (R78, C7); EXT P is signed overflow (R82). -/
def IsDifference (m : FlagRules) (f : Flags) (a b : Byte) (bin : Bool) (r : Byte) (g : Flags) : Prop :=
  (r.toNat : Int) = ((a.toNat : Int) - (b.toNat : Int) - (bin.toNat : Int)) % 256
  ∧ (g.fS = true ↔ 128 ≤ r.toNat)
  ∧ (g.fZ = true ↔ r.toNat = 0)
  ∧ (g.fC = true ↔ a.toNat < b.toNat + bin.toNat)
  ∧ match m with
    | .base =>
      (g.fH = true ↔ b.toNat % 16 + bin.toNat ≤ a.toNat % 16)
      ∧ (g.fP = true ↔ popcount r % 2 = 0) ∧ g.f3 = f.f3 ∧ g.f5 = f.f5 ∧ g.fN = f.fN
    | .ext x => x = .z80 →
      (g.fH = true ↔ a.toNat % 16 < b.toNat % 16 + bin.toNat)
      ∧ (g.fP = true ↔ a.toInt - b.toInt - (bin.toNat : Int) < -128 ∨ 127 < a.toInt - b.toInt - (bin.toNat : Int))
      ∧ g.fN = true

/-- In EXT, under the Z80 rules, `g`'s f3 and f5 copy bits 3 and 5 of `v`. -/
def Copies35 (m : FlagRules) (v : Byte) (g : Flags) : Prop :=
  m = .ext .z80 → g.f3 = v.getLsbD 3 ∧ g.f5 = v.getLsbD 5

/-- `g`'s flags f3, f5 and fN are those of `f`. -/
def KeepsExtFlags (f g : Flags) : Prop := g.f3 = f.f3 ∧ g.f5 = f.f5 ∧ g.fN = f.fN

/-- `r` and `g` are the result and the flags of `x + 1` (R84). fC is kept. -/
def IsIncrement (m : FlagRules) (f : Flags) (x r : Byte) (g : Flags) : Prop :=
  r.toNat = (x.toNat + 1) % 256
  ∧ (g.fS = true ↔ 128 ≤ r.toNat)
  ∧ (g.fZ = true ↔ r.toNat = 0)
  ∧ (g.fH = true ↔ x.toNat % 16 = 15)
  ∧ g.fC = f.fC
  ∧ match m with
    | .base => (g.fP = true ↔ popcount r % 2 = 0) ∧ KeepsExtFlags f g
    | .ext e => e = .z80 → (g.fP = true ↔ 127 < x.toInt + 1) ∧ g.fN = false ∧ g.f3 = r.getLsbD 3 ∧ g.f5 = r.getLsbD 5

/-- `r` and `g` are the result and the flags of `x - 1` (R85). fC is kept. -/
def IsDecrement (m : FlagRules) (f : Flags) (x r : Byte) (g : Flags) : Prop :=
  (r.toNat : Int) = ((x.toNat : Int) - 1) % 256
  ∧ (g.fS = true ↔ 128 ≤ r.toNat)
  ∧ (g.fZ = true ↔ r.toNat = 0)
  ∧ g.fC = f.fC
  ∧ match m with
    | .base => (g.fH = true ↔ 1 ≤ x.toNat % 16) ∧ (g.fP = true ↔ popcount r % 2 = 0) ∧ KeepsExtFlags f g
    | .ext e => e = .z80 →
      (g.fH = true ↔ x.toNat % 16 < 1) ∧ (g.fP = true ↔ x.toInt - 1 < -128)
      ∧ g.fN = true ∧ g.f3 = r.getLsbD 3 ∧ g.f5 = r.getLsbD 5

/-- `g` are the flags of a logic operation with result `r`, its half-carry given for each mode (R86, R87). -/
def IsLogicFlags (m : FlagRules) (f : Flags) (r : Byte) (g : Flags) (hBase hExt : Bool) : Prop :=
  (g.fS = true ↔ 128 ≤ r.toNat)
  ∧ (g.fZ = true ↔ r.toNat = 0)
  ∧ (g.fP = true ↔ popcount r % 2 = 0)
  ∧ g.fC = false
  ∧ match m with
    | .base => g.fH = hBase ∧ KeepsExtFlags f g
    | .ext x => x = .z80 → g.fH = hExt ∧ g.fN = false ∧ g.f3 = r.getLsbD 3 ∧ g.f5 = r.getLsbD 5

/-- `g` keeps fS, fZ and fP of `f` and has carry `c`; in BASE nothing else changes, in EXT under the Z80 rules
fH is `h`, fN is `n`, and f3 and f5 copy `v` (R88, R149 to R151). -/
def IsCarryFlags (m : FlagRules) (f g : Flags) (c h n : Bool) (v : Byte) : Prop :=
  g.fS = f.fS ∧ g.fZ = f.fZ ∧ g.fP = f.fP ∧ g.fC = c
  ∧ match m with
    | .base => g.fH = f.fH ∧ KeepsExtFlags f g
    | .ext x => x = .z80 → g.fH = h ∧ g.fN = n ∧ g.f3 = v.getLsbD 3 ∧ g.f5 = v.getLsbD 5

/-- `t` is `s` with the word `v` pushed: SP lower by 2, the high byte offered at SP-1 and then the low byte at SP-2
(R160). -/
def Pushes (s t : State) (v : Word) : Prop :=
  t.sp = s.sp - 2
  ∧ ∀ w, t.memRead w = ((s.memWrite (s.sp - 1) (hiByte v)).memWrite (s.sp - 2) (loByte v)).memRead w

/-- The word on top of the stack: the low byte at SP, the high byte at SP+1 (R160). -/
def TopOfStack (s : State) (v : Word) : Prop :=
  v.toNat = (s.memRead s.sp).toNat + 256 * (s.memRead (s.sp + 1)).toNat

end Sys2Proof.Machine
end

