-- ==== Sys2Proof/Certificates/Slice0/Obligations.lean ====
section
/-! DEFINITION. The statements for the provers. Each docstring names the rules of spec/ it is about. -/

open Sys2Proof Sys2Proof.Machine

/-! ## Encoding -/

/-- Decode and encode agree for every instruction of either mode, whatever bytes follow (R50 to R58).
The spec marks as its own inference: R50 (D27), R52 (general knowledge), R55 (general knowledge), R56 (general
knowledge), R57 (general knowledge), R58 (general knowledge, D11) (log entry 11). -/
def Obligations.DecodeEncodeRoundTrip : Prop :=
  ∀ (m : Mode) (i : Instr) (rest : List Byte), i.wf m = true → decode m (encode i ++ rest) = .ok (i, rest)

/-- Whatever decodes is an instruction of the mode's table, and its bytes are the ones it was read from (R57, R58).
The spec marks as its own inference: R57 (general knowledge), R58 (general knowledge, D11) (log entry 11). -/
def Obligations.DecodedBytesReencode : Prop :=
  ∀ (m : Mode) (bs rest : List Byte) (i : Instr),
    decode m bs = .ok (i, rest) → i.wf m = true ∧ encode i ++ rest = bs

/-- The opcode byte and the mode alone fix the length; a sequence at least that long decodes, and a shorter one does not
(R50, R62).
The spec marks as its own inference: R50 (D27), R62 (derived) (log entry 11). -/
def Obligations.LengthFollowsOpcode : Prop :=
  ∀ (m : Mode) (op : Byte) (rest : List Byte),
    (instrLength m op ≤ rest.length + 1 →
      ∃ i, decode m (op :: rest) = .ok (i, (op :: rest).drop (instrLength m op))
        ∧ encode i = (op :: rest).take (instrLength m op))
    ∧ (rest.length + 1 < instrLength m op → decode m (op :: rest) = .error .operandsMissing)

/-- The two dispatch tables differ in exactly twelve cells (R58, C15).
The spec marks as its own inference: R58 (general knowledge, D11) (log entry 11). -/
def Obligations.TwelveCellsDiffer : Prop :=
  ∀ op : Byte,
    (∀ b1 b2 : Byte, decodeOpcode .base op b1 b2 = decodeOpcode .ext op b1 b2) ↔
      op.toNat ∉ [0x08, 0x10, 0x18, 0x20, 0x28, 0x30, 0x38, 0xCB, 0xD9, 0xDD, 0xED, 0xFD]

/-- The twelve BASE duplicates have the length and effect of their twins, and at the decided tables their cost (R59, R201);
MOV r,r changes only PC and ticks.
The spec marks as its own inference: R59 (general knowledge, D10), R201 (general knowledge, D23, D35) (log entry
11). -/
def Obligations.DuplicatesActAsTheirTwins : Prop :=
  (∀ b1 b2 : Byte,
    (∀ k : BitVec 3, k ≠ 0 → decodeOpcode .base (BitVec.ofNat 8 (8 * k.toNat)) b1 b2 = .nopAlias k)
    ∧ decodeOpcode .base 0xCB b1 b2 = .jmpAlias (wordOf b2 b1)
    ∧ decodeOpcode .base 0xD9 b1 b2 = .retAlias
    ∧ decodeOpcode .base 0xDD b1 b2 = .callAlias 1 (wordOf b2 b1)
    ∧ decodeOpcode .base 0xED b1 b2 = .callAlias 2 (wordOf b2 b1)
    ∧ decodeOpcode .base 0xFD b1 b2 = .callAlias 3 (wordOf b2 b1))
  ∧ (∀ (k : BitVec 3) (j : BitVec 2) (w : Word),
    (encode (.nopAlias k)).length = (encode .nop).length
    ∧ (encode (.jmpAlias w)).length = (encode (.jmp w)).length
    ∧ (encode .retAlias).length = (encode .ret).length
    ∧ (encode (.callAlias j w)).length = (encode (.call w)).length)
  ∧ (∀ s : State,
    let Twins := fun (i j : Instr) =>
      ∃ t u, exec i s = .next t ∧ exec j s = .next u ∧ t = { u with ticks := t.ticks }
        ∧ (s.cfg.mode = .base → DecidedTicks s.cfg → t = u)
    (∀ k, Twins (.nopAlias k) .nop) ∧ (∀ w, Twins (.jmpAlias w) (.jmp w)) ∧ Twins .retAlias .ret
    ∧ ∀ k w, Twins (.callAlias k w) (.call w))
  ∧ ∀ (s : State) (r : Reg),
    ∃ t, exec (.movRR r r) s = .next t ∧ ChangesOnly [] s t ∧ EndsAt s t (s.pc + 1) 5 4

/-- Words written out from the bit patterns of R52 and the maps decode to what they stand for.
The spec marks as its own inference: R52 (general knowledge) (log entry 11). -/
def Obligations.SpecWordsDecode : Prop :=
  decode .base [0b00111110, 0x05] = .ok (.mviR .a 0x05, [])
  ∧ decode .base [0b00100001, 0x34, 0x12] = .ok (.lxi .hl 0x1234, [])
  ∧ decode .ext [0b00111010, 0x00, 0x81, 0x77] = .ok (.lda 0x8100, [0x77])
  ∧ decode .base [0b10011010] = .ok (.sbbR .d, [])
  ∧ decode .base [0b11111110, 0x28] = .ok (.cpi 0x28, [])
  ∧ decode .ext [0b11001100, 0x00, 0xA0] = .ok (.ccc .z 0xA000, [])
  ∧ decode .base [0b11101111] = .ok (.rst 5, [])
  ∧ decode .ext [0b11010101] = .ok (.push .de, [])
  ∧ decode .ext [0b00111000, 0x10] = .ok (.jrCc .c 0x10, [])
  ∧ decode .ext [0b11011101, 0x21] = .ok (.prefixDD, [0x21])

/-! ## The step -/

/-- When the bytes at PC decode to a well-formed instruction, the step is its meaning, and nothing is added around it
(R64 to R66, R69).
The spec marks as its own inference: R69 (D25) (log entry 11). -/
def Obligations.StepRunsDecodedInstruction : Prop :=
  ∀ (s : State) (i : Instr) (rest : List Byte),
    decode s.cfg.mode [s.memRead s.pc, s.memRead (s.pc + 1), s.memRead (s.pc + 2)] = .ok (i, rest) →
      i.wf s.cfg.mode = true → step s = exec i s

/-- Every opcode of either mode is an instruction, it completes in every state, and the prefix bytes, whose effects are
not implemented, are no-ops (R60). -/
def Obligations.EveryOpcodeCompletes : Prop :=
  (∀ (m : Mode) (op b1 b2 : Byte),
    (decodeOpcode m op b1 b2).wf m = true ∧ ∀ s : State, ∃ t, exec (decodeOpcode m op b1 b2) s = .next t)
  ∧ (∀ s : State, ∃ t, step s = .next t)
  ∧ ∀ (op b1 b2 : Byte) (s : State), op.toNat ∈ [0xCB, 0xDD, 0xED, 0xFD] →
    ∃ t, exec (decodeOpcode .ext op b1 b2) s = .next t ∧ ChangesOnly [] s t ∧ t.pc = s.pc + 1

/-! ## Memory and the bus -/

/-- A write below ROM_BOUNDARY is applied, and changes nothing else (R31). -/
def Obligations.RamWriteApplies : Prop :=
  ∀ (s : State) (a : Word) (v : Byte), a < s.cfg.romBoundary →
    (s.memWrite a v).memRead a = v
    ∧ (∀ w, w ≠ a → (s.memWrite a v).memRead w = s.memRead w)
    ∧ ChangesOnly [.mem] s (s.memWrite a v)
    ∧ (s.memWrite a v).pc = s.pc ∧ (s.memWrite a v).ticks = s.ticks

/-- A write at or above ROM_BOUNDARY and outside the window changes nothing; at the decided parameters these addresses
are 0xC000 to 0xF7FF (R32). -/
def Obligations.RomWriteDiscarded : Prop :=
  (∀ (s : State) (a : Word) (v : Byte),
    ¬ a < s.cfg.romBoundary → ¬ (s.cfg.windowLo ≤ a ∧ a ≤ s.cfg.windowHi) → s.memWrite a v = s)
  ∧ ∀ a : Word,
    (¬ a < resetParams.romBoundary ∧ ¬ (resetParams.windowLo ≤ a ∧ a ≤ resetParams.windowHi)) ↔
      0xC000 ≤ a.toNat ∧ a.toNat ≤ 0xF7FF

/-- A control word at offset 3 of the window fills the window with its pattern; nothing else of it remains (R33). -/
def Obligations.ControlWordFillsWindow : Prop :=
  ∀ (s : State) (a : Word) (v : Byte) (p : Pattern),
    ¬ a < s.cfg.romBoundary → s.cfg.windowLo ≤ a → a ≤ s.cfg.windowHi → a.toNat % 4 = 3 →
    ppiControl s.cfg v = some p →
      (∀ w, s.cfg.windowLo ≤ w → w ≤ s.cfg.windowHi →
        (w.toNat % 4 = 0 → (s.memWrite a v).memRead w = p.p0)
        ∧ (w.toNat % 4 = 1 → (s.memWrite a v).memRead w = p.p1)
        ∧ (w.toNat % 4 = 2 → (s.memWrite a v).memRead w = p.p2)
        ∧ (w.toNat % 4 = 3 → (s.memWrite a v).memRead w = p.p3))
      ∧ (∀ w, ¬ (s.cfg.windowLo ≤ w ∧ w ≤ s.cfg.windowHi) → (s.memWrite a v).memRead w = s.memRead w)
      ∧ ChangesOnly [.mem] s (s.memWrite a v)
      ∧ (s.memWrite a v).pc = s.pc ∧ (s.memWrite a v).ticks = s.ticks

/-- Any other write in the window follows WINDOW_DATA_WRITE, whose decided value is DISCARD (R34).
The spec marks as its own inference: R34 (D19) (log entry 11). -/
def Obligations.WindowDataWriteByPolicy : Prop :=
  (∀ (s : State) (a : Word) (v : Byte),
    ¬ a < s.cfg.romBoundary → s.cfg.windowLo ≤ a → a ≤ s.cfg.windowHi →
    (a.toNat % 4 ≠ 3 ∨ ppiControl s.cfg v = none) →
      (s.cfg.windowDataWrite = .discard → ∀ w, (s.memWrite a v).memRead w = s.memRead w)
      ∧ (s.cfg.windowDataWrite = .store →
        (s.memWrite a v).memRead a = v ∧ ∀ w, w ≠ a → (s.memWrite a v).memRead w = s.memRead w)
      ∧ (s.cfg.windowDataWrite = .storeReplicated →
        (∀ w, s.cfg.windowLo ≤ w → w ≤ s.cfg.windowHi → w.toNat % 4 = a.toNat % 4 → (s.memWrite a v).memRead w = v)
        ∧ ∀ w, ¬ (s.cfg.windowLo ≤ w ∧ w ≤ s.cfg.windowHi ∧ w.toNat % 4 = a.toNat % 4) →
          (s.memWrite a v).memRead w = s.memRead w)
      ∧ ChangesOnly [.mem] s (s.memWrite a v))
  ∧ resetParams.windowDataWrite = .discard

/-- Canonical memories that read the same at every address are the same data (R28; log entry 4 for what is unlisted). -/
def Obligations.MemoryEqualWhenReadsEqual : Prop :=
  ∀ m n : Memory, m.wf → n.wf → (∀ a, m.read a = n.read a) → m = n

/-- Repeating a write leaves the same memory, in every region (R45).
The spec marks as its own inference: R45 (derived) (log entry 11). -/
def Obligations.RepeatedWriteChangesNothing : Prop :=
  ∀ (s : State) (a : Word) (v : Byte),
    (∀ w, ((s.memWrite a v).memWrite a v).memRead w = (s.memWrite a v).memRead w)
    ∧ (s.mem.wf → (s.memWrite a v).memWrite a v = s.memWrite a v)

/-- Words are little-endian and the second address wraps (R38, R39).
The spec marks as its own inference: R38 (general knowledge, D2, D3), R39 (derived) (log entry 11). -/
def Obligations.WordsAreLittleEndian : Prop :=
  (∀ (s : State) (a : Word),
    (s.memRead16 a).toNat = (s.memRead a).toNat + 256 * (s.memRead (a + 1)).toNat)
  ∧ (∀ s : State,
    (s.memRead16 0xFFFF).toNat = (s.memRead 0xFFFF).toNat + 256 * (s.memRead 0x0000).toNat)
  ∧ ∀ (s : State) (a v : Word), a < s.cfg.romBoundary → a + 1 < s.cfg.romBoundary →
    ((s.memWrite16 a v).memRead a).toNat = v.toNat % 256
    ∧ ((s.memWrite16 a v).memRead (a + 1)).toNat = v.toNat / 256
    ∧ (s.memWrite16 a v).memRead16 a = v
    ∧ ∀ w, w ≠ a → w ≠ a + 1 → (s.memWrite16 a v).memRead w = s.memRead w

/-! ## Registers and flags -/

/-- The pair views: the high byte first, computed from the byte registers, written through to both (R9, R10). -/
def Obligations.PairViewsOfByteRegisters : Prop :=
  (∀ s : State,
    s.bc.toNat = s.b.toNat * 256 + s.c.toNat
    ∧ s.de.toNat = s.d.toNat * 256 + s.e.toNat
    ∧ s.hl.toNat = s.h.toNat * 256 + s.l.toNat)
  ∧ (∀ (s : State) (v : Byte),
    (s.setReg .b v).bc.toNat = v.toNat * 256 + s.c.toNat ∧ (s.setReg .c v).bc.toNat = s.b.toNat * 256 + v.toNat
    ∧ (s.setReg .d v).de.toNat = v.toNat * 256 + s.e.toNat ∧ (s.setReg .e v).de.toNat = s.d.toNat * 256 + v.toNat
    ∧ (s.setReg .h v).hl.toNat = v.toNat * 256 + s.l.toNat ∧ (s.setReg .l v).hl.toNat = s.h.toNat * 256 + v.toNat)
  ∧ ∀ (s : State) (w : Word),
    ((s.setBc w).b.toNat = w.toNat / 256 ∧ (s.setBc w).c.toNat = w.toNat % 256 ∧ (s.setBc w).bc = w
      ∧ ChangesOnly [.reg .b, .reg .c] s (s.setBc w))
    ∧ ((s.setDe w).d.toNat = w.toNat / 256 ∧ (s.setDe w).e.toNat = w.toNat % 256 ∧ (s.setDe w).de = w
      ∧ ChangesOnly [.reg .d, .reg .e] s (s.setDe w))
    ∧ ((s.setHl w).h.toNat = w.toNat / 256 ∧ (s.setHl w).l.toNat = w.toNat % 256 ∧ (s.setHl w).hl = w
      ∧ ChangesOnly [.reg .h, .reg .l] s (s.setHl w))

/-- ADD_HC is the carry out of bit 3 of a sum and SUB_HB the borrow out of bit 3 of a difference (R76 to R78).
The spec marks as its own inference: R76 (derived), R77 (derived), R78 (general knowledge, derived) (log entry 11). -/
def Obligations.HalfCarryTables : Prop :=
  ∀ (a b : Byte) (c : Bool),
    (addHc (hcIndex a b (BitVec.ofNat 8 (a.toNat + b.toNat + c.toNat))) = true ↔
      16 ≤ a.toNat % 16 + b.toNat % 16 + c.toNat)
    ∧ (subHb (hcIndex a b (BitVec.ofInt 8 ((a.toNat : Int) - (b.toNat : Int) - (c.toNat : Int)))) = true ↔
      a.toNat % 16 < b.toNat % 16 + c.toNat)

/-- The layout of F, what unpack takes from it, and the two round trips (R92, R93).
The spec marks as its own inference: R92 (general knowledge, D15), R93 (derived) (log entry 11). -/
def Obligations.PackAndUnpackFlags : Prop :=
  ∀ (f : Flags) (v : Byte),
    (∀ m : Mode,
      (packFlags m f).getLsbD 7 = f.fS ∧ (packFlags m f).getLsbD 6 = f.fZ ∧ (packFlags m f).getLsbD 4 = f.fH
      ∧ (packFlags m f).getLsbD 2 = f.fP ∧ (packFlags m f).getLsbD 0 = f.fC
      ∧ unpackFlags m f (packFlags m f) = f
      ∧ (unpackFlags m f v).fS = v.getLsbD 7 ∧ (unpackFlags m f v).fZ = v.getLsbD 6
      ∧ (unpackFlags m f v).fH = v.getLsbD 4 ∧ (unpackFlags m f v).fP = v.getLsbD 2
      ∧ (unpackFlags m f v).fC = v.getLsbD 0)
    ∧ ((packFlags .base f).getLsbD 5 = false ∧ (packFlags .base f).getLsbD 3 = false
      ∧ (packFlags .base f).getLsbD 1 = true ∧ KeepsExtFlags f (unpackFlags .base f v)
      ∧ packFlags .base (unpackFlags .base f v) = (v &&& 0xD5) ||| 0x02)
    ∧ ((packFlags .ext f).getLsbD 5 = f.f5 ∧ (packFlags .ext f).getLsbD 3 = f.f3
      ∧ (packFlags .ext f).getLsbD 1 = f.fN ∧ (unpackFlags .ext f v).f5 = v.getLsbD 5
      ∧ (unpackFlags .ext f v).f3 = v.getLsbD 3 ∧ (unpackFlags .ext f v).fN = v.getLsbD 1
      ∧ packFlags .ext (unpackFlags .ext f v) = v)

/-- `cond(c)`: bits 2:1 of the field choose fZ, fC, fP or fS and bit 0 is the polarity; JR cc uses the first four
conditions (R94).
The spec marks as its own inference: R94 (derived) (log entry 11). -/
def Obligations.ConditionField : Prop :=
  (∀ (f : Flags) (c : BitVec 3),
    condHolds f (condOf c) = true ↔
      [f.fZ, f.fC, f.fP, f.fS].getD (c.toNat / 2) false = decide (c.toNat % 2 = 1))
  ∧ ∀ (f : Flags) (q : BitVec 2), jrCondHolds f (jrCondOf q) = condHolds f (condOf (BitVec.setWidth 3 q))

/-! ## Data transfer -/

/-- MOV r,r', MOV r,M and MVI r put their source in the destination and leave every other register (R100, R101, R103). -/
def Obligations.MoveInstructions : Prop :=
  ∀ (s : State) (dst : Reg),
    (∀ src, ∃ t, exec (.movRR dst src) s = .next t ∧ t.reg dst = s.reg src
      ∧ (∀ q, q ≠ dst → t.reg q = s.reg q) ∧ EndsAt s t (s.pc + 1) 5 4)
    ∧ (∃ t, exec (.movRM dst) s = .next t ∧ t.reg dst = s.memRead s.hl
      ∧ (∀ q, q ≠ dst → t.reg q = s.reg q) ∧ EndsAt s t (s.pc + 1) 7 7)
    ∧ ∀ v, ∃ t, exec (.mviR dst v) s = .next t ∧ t.reg dst = v
      ∧ (∀ q, q ≠ dst → t.reg q = s.reg q) ∧ EndsAt s t (s.pc + 2) 7 7

/-- MOV M,r, MVI M, STA and STAX offer one byte to the bus at their address (R102, R104, R107, R111). -/
def Obligations.ByteStoreInstructions : Prop :=
  ∀ s : State,
    (∀ src, ∃ t, exec (.movMR src) s = .next t ∧ (∀ w, t.memRead w = (s.memWrite s.hl (s.reg src)).memRead w)
      ∧ EndsAt s t (s.pc + 1) 7 7)
    ∧ (∀ v, ∃ t, exec (.mviM v) s = .next t ∧ (∀ w, t.memRead w = (s.memWrite s.hl v).memRead w)
      ∧ EndsAt s t (s.pc + 2) 10 10)
    ∧ (∀ a, ∃ t, exec (.sta a) s = .next t ∧ (∀ w, t.memRead w = (s.memWrite a s.a).memRead w)
      ∧ EndsAt s t (s.pc + 3) 13 13)
    ∧ (∃ t, exec (.stax .bc) s = .next t ∧ (∀ w, t.memRead w = (s.memWrite s.bc s.a).memRead w)
      ∧ EndsAt s t (s.pc + 1) 7 7)
    ∧ ∃ t, exec (.stax .de) s = .next t ∧ (∀ w, t.memRead w = (s.memWrite s.de s.a).memRead w)
      ∧ EndsAt s t (s.pc + 1) 7 7

/-- LDA and LDAX load A from memory (R106, R110). -/
def Obligations.AccumulatorLoadInstructions : Prop :=
  ∀ s : State,
    (∀ w, ∃ t, exec (.lda w) s = .next t ∧ t.a = s.memRead w ∧ EndsAt s t (s.pc + 3) 13 13)
    ∧ (∃ t, exec (.ldax .bc) s = .next t ∧ t.a = s.memRead s.bc ∧ EndsAt s t (s.pc + 1) 7 7)
    ∧ ∃ t, exec (.ldax .de) s = .next t ∧ t.a = s.memRead s.de ∧ EndsAt s t (s.pc + 1) 7 7

/-- LXI, LHLD, SPHL and XCHG (R105, R108, R112, R166). -/
def Obligations.WordLoadInstructions : Prop :=
  ∀ s : State,
    (∀ p w, ∃ t, exec (.lxi p w) s = .next t ∧ t.pair p = w
      ∧ (p = .bc → t.b.toNat = w.toNat / 256 ∧ t.c.toNat = w.toNat % 256)
      ∧ (p = .de → t.d.toNat = w.toNat / 256 ∧ t.e.toNat = w.toNat % 256)
      ∧ (p = .hl → t.h.toNat = w.toNat / 256 ∧ t.l.toNat = w.toNat % 256)
      ∧ EndsAt s t (s.pc + 3) 10 10)
    ∧ (∀ w, ∃ t, exec (.lhld w) s = .next t ∧ t.l = s.memRead w ∧ t.h = s.memRead (w + 1)
      ∧ EndsAt s t (s.pc + 3) 16 16)
    ∧ (∃ t, exec .sphl s = .next t ∧ t.sp.toNat = s.h.toNat * 256 + s.l.toNat ∧ EndsAt s t (s.pc + 1) 5 6)
    ∧ ∃ t, exec .xchg s = .next t ∧ t.h = s.d ∧ t.l = s.e ∧ t.d = s.h ∧ t.e = s.l ∧ EndsAt s t (s.pc + 1) 4 4

/-- SHLD and XTHL offer L and then H to the bus; XTHL loads HL with the word it reads first (R109, R165). -/
def Obligations.WordStoreInstructions : Prop :=
  ∀ s : State,
    (∀ a, ∃ t, exec (.shld a) s = .next t
      ∧ (∀ w, t.memRead w = ((s.memWrite a s.l).memWrite (a + 1) s.h).memRead w) ∧ EndsAt s t (s.pc + 3) 16 16)
    ∧ ∃ t, exec .xthl s = .next t ∧ t.l = s.memRead s.sp ∧ t.h = s.memRead (s.sp + 1) ∧ t.sp = s.sp
      ∧ (∀ w, t.memRead w = ((s.memWrite s.sp s.l).memWrite (s.sp + 1) s.h).memRead w)
      ∧ EndsAt s t (s.pc + 1) 18 19

/-! ## Arithmetic -/

/-- ADD, ADI, ADC and ACI: the sum, with the carry in where the rule says so, and every flag in numbers (R79 in BASE, R81
in EXT, R113 to R118). EXT fP, f3, f5 and fN are those of the Z80 rules (R81, log entry 8).
The spec marks as its own inference: R81 (general knowledge, D12) (log entry 11). -/
def Obligations.AddInstructions : Prop :=
  ∀ s : State,
    let Adds := fun (i : Instr) (x : Byte) (cin : Bool) (len : Word) (cost : Nat) =>
      ∃ t, exec i s = .next t ∧ IsSum s.cfg.flagRules s.flags s.a x cin t.a t.flags ∧ EndsAt s t (s.pc + len) cost cost
    (∀ r, Adds (.addR r) (s.reg r) false 1 4) ∧ Adds .addM (s.memRead s.hl) false 1 7
    ∧ (∀ v, Adds (.adi v) v false 2 7)
    ∧ (∀ r, Adds (.adcR r) (s.reg r) s.flags.fC 1 4) ∧ Adds .adcM (s.memRead s.hl) s.flags.fC 1 7
    ∧ ∀ v, Adds (.aci v) v s.flags.fC 2 7

/-- SUB, SUI, SBB and SBI: the difference, with the borrow in where the rule says so, and every flag in numbers: fC as
the borrow (R80), fH from SUB_HB (R78), and EXT fH, fP, f3, f5 and fN by the Z80 rules (R82, log entry 8) (R119 to R124).
The spec marks as its own inference: R78 (general knowledge, derived), R80 (D29, derived), R82 (general knowledge,
D12) (log entry 11). -/
def Obligations.SubtractInstructions : Prop :=
  ∀ s : State,
    let Subtracts := fun (i : Instr) (x : Byte) (bin : Bool) (len : Word) (cost : Nat) =>
      ∃ t, exec i s = .next t ∧ IsDifference s.cfg.flagRules s.flags s.a x bin t.a t.flags
        ∧ Copies35 s.cfg.flagRules t.a t.flags ∧ EndsAt s t (s.pc + len) cost cost
    (∀ r, Subtracts (.subR r) (s.reg r) false 1 4) ∧ Subtracts .subM (s.memRead s.hl) false 1 7
    ∧ (∀ v, Subtracts (.sui v) v false 2 7)
    ∧ (∀ r, Subtracts (.sbbR r) (s.reg r) s.flags.fC 1 4) ∧ Subtracts .sbbM (s.memRead s.hl) s.flags.fC 1 7
    ∧ ∀ v, Subtracts (.sbi v) v s.flags.fC 2 7

/-- CMP and CPI: the flags of a difference that is discarded (R78, R80, R82), f3 and f5 from the operand in EXT, A
unchanged (R83, R142 to R144).
The spec marks as its own inference: R78 (general knowledge, derived), R80 (D29, derived), R82 (general knowledge,
D12), R83 (general knowledge, D12) (log entry 11). -/
def Obligations.CompareInstructions : Prop :=
  ∀ s : State,
    let Compares := fun (i : Instr) (x : Byte) (len : Word) (cost : Nat) =>
      ∃ t, exec i s = .next t ∧ t.a = s.a
        ∧ IsDifference s.cfg.flagRules s.flags s.a x false (s.a - x) t.flags
        ∧ Copies35 s.cfg.flagRules x t.flags ∧ EndsAt s t (s.pc + len) cost cost
    (∀ r, Compares (.cmpR r) (s.reg r) 1 4) ∧ Compares .cmpM (s.memRead s.hl) 1 7 ∧ ∀ v, Compares (.cpi v) v 2 7

/-- INR and DCR of a register and of M: the byte and every flag but fC, which is kept (R84, R85, R125 to R128). EXT fP,
f3, f5, fN and the fH of DCR are those of the Z80 rules (log entry 8).
The spec marks as its own inference: R84 (general knowledge, D28, derived), R85 (general knowledge, D28, derived)
(log entry 11). -/
def Obligations.IncrementDecrementInstructions : Prop :=
  ∀ s : State,
    (∀ r, ∃ t, exec (.inrR r) s = .next t ∧ IsIncrement s.cfg.flagRules s.flags (s.reg r) (t.reg r) t.flags
      ∧ EndsAt s t (s.pc + 1) 5 4)
    ∧ (∃ t v, exec .inrM s = .next t ∧ IsIncrement s.cfg.flagRules s.flags (s.memRead s.hl) v t.flags
      ∧ (∀ w, t.memRead w = (s.memWrite s.hl v).memRead w) ∧ EndsAt s t (s.pc + 1) 10 11)
    ∧ (∀ r, ∃ t, exec (.dcrR r) s = .next t ∧ IsDecrement s.cfg.flagRules s.flags (s.reg r) (t.reg r) t.flags
      ∧ EndsAt s t (s.pc + 1) 5 4)
    ∧ ∃ t v, exec .dcrM s = .next t ∧ IsDecrement s.cfg.flagRules s.flags (s.memRead s.hl) v t.flags
      ∧ (∀ w, t.memRead w = (s.memWrite s.hl v).memRead w) ∧ EndsAt s t (s.pc + 1) 10 11

/-- INX and DCX count a pair modulo 65,536 and write no flag; DAD adds a pair to HL, with the flags of add16 (R89, R129 to
R131). EXT fH, f3, f5 and fN are those of the Z80 rules (log entry 8).
The spec marks as its own inference: R89 (general knowledge) (log entry 11). -/
def Obligations.PairArithmeticInstructions : Prop :=
  ∀ (s : State) (p : RegPair),
    (∃ t, exec (.inx p) s = .next t ∧ (t.pair p).toNat = ((s.pair p).toNat + 1) % 65536 ∧ t.flags = s.flags
      ∧ EndsAt s t (s.pc + 1) 5 6)
    ∧ (∃ t, exec (.dcx p) s = .next t ∧ (t.pair p).toNat = ((s.pair p).toNat + 65535) % 65536 ∧ t.flags = s.flags
      ∧ EndsAt s t (s.pc + 1) 5 6)
    ∧ ∃ t, exec (.dad p) s = .next t ∧ t.hl.toNat = (s.hl.toNat + (s.pair p).toNat) % 65536
      ∧ IsCarryFlags s.cfg.flagRules s.flags t.flags (decide (65536 ≤ s.hl.toNat + (s.pair p).toNat))
        (decide (4096 ≤ s.hl.toNat % 4096 + (s.pair p).toNat % 4096)) false t.h
      ∧ EndsAt s t (s.pc + 1) 10 11

/-- DAA in numbers, in BASE and in EXT, where the Z80 rules subtract the correction after a subtraction (R90, R91, R132).
The spec marks as its own inference: R90 (derived), R91 (general knowledge, D13, derived) (log entry 11). -/
def Obligations.DecimalAdjustInstruction : Prop :=
  ∀ s : State, ∃ t, exec .daa s = .next t
    ∧ (let low := if s.flags.fH = true ∨ 9 < s.a.toNat % 16 then 6 else 0
       let high := if s.flags.fC = true ∨ 0x99 < s.a.toNat then 0x60 else 0
       (t.flags.fC = true ↔ s.flags.fC = true ∨ 0x99 < s.a.toNat)
       ∧ (t.flags.fS = true ↔ 128 ≤ t.a.toNat) ∧ (t.flags.fZ = true ↔ t.a.toNat = 0) ∧ t.flags.fN = s.flags.fN
       ∧ (s.cfg.mode = .base → t.a.toNat = (s.a.toNat + (low + high)) % 256
         ∧ (t.flags.fH = true ↔ 16 ≤ s.a.toNat % 16 + low)
         ∧ (t.flags.fP = true ↔ popcount t.a % 2 = 0) ∧ KeepsExtFlags s.flags t.flags)
       ∧ (s.cfg.mode = .ext → s.flags.fN = false → t.a.toNat = (s.a.toNat + (low + high)) % 256
         ∧ (t.flags.fH = true ↔ 9 < s.a.toNat % 16))
       ∧ (s.cfg.mode = .ext → s.cfg.extFlagRules = .z80 →
         (t.flags.fP = true ↔ popcount t.a % 2 = 0)
         ∧ t.flags.f3 = t.a.getLsbD 3 ∧ t.flags.f5 = t.a.getLsbD 5
         ∧ (s.flags.fN = true → t.a.toNat = (s.a.toNat + 256 - (low + high)) % 256
           ∧ (t.flags.fH = true ↔ s.flags.fH = true ∧ s.a.toNat % 16 < 6))))
    ∧ EndsAt s t (s.pc + 1) 4 4

/-- With fN clear the EXT algorithm gives the A, fS, fZ, fH, fP and fC of the BASE one (R91, D13).
The spec marks as its own inference: R91 (general knowledge, D13, derived) (log entry 11). -/
def Obligations.DecimalAdjustModesAgree : Prop :=
  ∀ (f : Flags) (a : Byte), f.fN = false →
    (daa8 (.ext .z80) f a).1 = (daa8 .base f a).1
    ∧ (daa8 (.ext .z80) f a).2.fS = (daa8 .base f a).2.fS ∧ (daa8 (.ext .z80) f a).2.fZ = (daa8 .base f a).2.fZ
    ∧ (daa8 (.ext .z80) f a).2.fH = (daa8 .base f a).2.fH ∧ (daa8 (.ext .z80) f a).2.fP = (daa8 .base f a).2.fP
    ∧ (daa8 (.ext .z80) f a).2.fC = (daa8 .base f a).2.fC

/-! ## Logic and rotates -/

/-- ANA, XRA, ORA and their immediate forms: the result bit by bit, and every flag (R86, R87, R133 to R141). EXT fH, f3,
f5 and fN are those of the Z80 rules (log entry 8).
The spec marks as its own inference: R86 (general knowledge, D14), R87 (general knowledge, D14) (log entry 11). -/
def Obligations.LogicInstructions : Prop :=
  ∀ s : State,
    let Combines := fun (i : Instr) (op : Bool → Bool → Bool) (x : Byte) (hBase hExt : Bool) (len : Word) (cost : Nat) =>
      ∃ t, exec i s = .next t ∧ (∀ k, k < 8 → t.a.getLsbD k = op (s.a.getLsbD k) (x.getLsbD k))
        ∧ IsLogicFlags s.cfg.flagRules s.flags t.a t.flags hBase hExt ∧ EndsAt s t (s.pc + len) cost cost
    (∀ r, Combines (.anaR r) and (s.reg r) (s.a.getLsbD 3 || (s.reg r).getLsbD 3) true 1 4)
    ∧ Combines .anaM and (s.memRead s.hl) (s.a.getLsbD 3 || (s.memRead s.hl).getLsbD 3) true 1 7
    ∧ (∀ v : Byte, Combines (.ani v) and v (s.a.getLsbD 3 || v.getLsbD 3) true 2 7)
    ∧ (∀ r, Combines (.xraR r) xor (s.reg r) false false 1 4)
    ∧ Combines .xraM xor (s.memRead s.hl) false false 1 7
    ∧ (∀ v, Combines (.xri v) xor v false false 2 7)
    ∧ (∀ r, Combines (.oraR r) or (s.reg r) false false 1 4)
    ∧ Combines .oraM or (s.memRead s.hl) false false 1 7
    ∧ ∀ v, Combines (.ori v) or v false false 2 7

/-- RLC, RRC, RAL and RAR in numbers, with their flags (R88, R145 to R148). EXT fH, f3, f5 and fN are those of the Z80
rules (log entry 8).
The spec marks as its own inference: R88 (general knowledge) (log entry 11). -/
def Obligations.RotateInstructions : Prop :=
  ∀ s : State,
    let Rotates := fun (i : Instr) (r : Nat) (c : Bool) =>
      ∃ t, exec i s = .next t ∧ t.a.toNat = r
        ∧ IsCarryFlags s.cfg.flagRules s.flags t.flags c false false t.a ∧ EndsAt s t (s.pc + 1) 4 4
    Rotates .rlc (2 * s.a.toNat % 256 + s.a.toNat / 128) (decide (128 ≤ s.a.toNat))
    ∧ Rotates .rrc (s.a.toNat / 2 + 128 * (s.a.toNat % 2)) (decide (s.a.toNat % 2 = 1))
    ∧ Rotates .ral (2 * s.a.toNat % 256 + s.flags.fC.toNat) (decide (128 ≤ s.a.toNat))
    ∧ Rotates .rar (s.a.toNat / 2 + 128 * s.flags.fC.toNat) (decide (s.a.toNat % 2 = 1))

/-- CMA, CMC and STC: A and every flag (R149 to R151). EXT fH, f3, f5 and fN are those of the Z80 rules (log entry 8).
The spec marks as its own inference: R149 (general knowledge), R150 (general knowledge), R151 (general knowledge)
(log entry 11). -/
def Obligations.ComplementAndCarryInstructions : Prop :=
  ∀ s : State,
    (∃ t, exec .cma s = .next t ∧ t.a.toNat = 255 - s.a.toNat
      ∧ IsCarryFlags s.cfg.flagRules s.flags t.flags s.flags.fC true true t.a ∧ EndsAt s t (s.pc + 1) 4 4)
    ∧ (∃ t, exec .cmc s = .next t ∧ t.a = s.a
      ∧ IsCarryFlags s.cfg.flagRules s.flags t.flags (!s.flags.fC) s.flags.fC false s.a ∧ EndsAt s t (s.pc + 1) 4 4)
    ∧ ∃ t, exec .stc s = .next t ∧ t.a = s.a
      ∧ IsCarryFlags s.cfg.flagRules s.flags t.flags true false false s.a ∧ EndsAt s t (s.pc + 1) 4 4

/-! ## Branches -/

/-- JMP and its duplicate, Jcc on both outcomes, and PCHL: PC and ticks, and nothing else (R152, R153, R159).
The spec marks as its own inference: R152 (D10), R153 (D26) (log entry 11). -/
def Obligations.JumpInstructions : Prop :=
  ∀ (s : State) (w : Word),
    (∃ t, exec (.jmp w) s = .next t ∧ ChangesOnly [] s t ∧ EndsAt s t w 10 10)
    ∧ (∃ t, exec (.jmpAlias w) s = .next t ∧ ChangesOnly [] s t ∧ t.pc = w
      ∧ (s.cfg.mode = .base → EndsAt s t w 10 10))
    ∧ (∀ c : BitVec 3, ∃ t, exec (.jcc (condOf c) w) s = .next t ∧ ChangesOnly [] s t
      ∧ EndsAt s t (if condHolds s.flags (condOf c) = true then w else s.pc + 3) 10 10)
    ∧ ∃ t, exec .pchl s = .next t ∧ ChangesOnly [] s t ∧ t.pc.toNat = s.h.toNat * 256 + s.l.toNat
      ∧ EndsAt s t t.pc 5 4

/-- CALL and its duplicates, Ccc and RST push the address of the next instruction and go to their target; a Ccc not
taken changes PC and ticks alone (R154, R155, R158).
The spec marks as its own inference: R154 (D10) (log entry 11). -/
def Obligations.CallInstructions : Prop :=
  ∀ (s : State) (w : Word),
    (∃ t, exec (.call w) s = .next t ∧ Pushes s t (s.pc + 3) ∧ EndsAt s t w 17 17)
    ∧ (∀ k, ∃ t, exec (.callAlias k w) s = .next t ∧ Pushes s t (s.pc + 3) ∧ t.pc = w
      ∧ (s.cfg.mode = .base → EndsAt s t w 17 17))
    ∧ (∀ cc, ∃ t, exec (.ccc cc w) s = .next t
      ∧ (condHolds s.flags cc = true → Pushes s t (s.pc + 3) ∧ EndsAt s t w 17 17)
      ∧ (condHolds s.flags cc = false → ChangesOnly [] s t ∧ EndsAt s t (s.pc + 3) 11 10))
    ∧ ∀ n : BitVec 3, ∃ t, exec (.rst n) s = .next t ∧ Pushes s t (s.pc + 1) ∧ t.pc.toNat = 8 * n.toNat
      ∧ EndsAt s t t.pc 11 11

/-- RET and its duplicate, and Rcc: the popped word becomes PC and SP moves up by 2; an Rcc not taken changes PC and
ticks alone (R156, R157).
The spec marks as its own inference: R156 (D10) (log entry 11). -/
def Obligations.ReturnInstructions : Prop :=
  ∀ s : State,
    (∃ t, exec .ret s = .next t ∧ TopOfStack s t.pc ∧ t.sp = s.sp + 2 ∧ EndsAt s t t.pc 10 10)
    ∧ (∃ t, exec .retAlias s = .next t ∧ TopOfStack s t.pc ∧ t.sp = s.sp + 2
      ∧ (s.cfg.mode = .base → EndsAt s t t.pc 10 10))
    ∧ ∀ cc, ∃ t, exec (.rcc cc) s = .next t
      ∧ (condHolds s.flags cc = true → TopOfStack s t.pc ∧ t.sp = s.sp + 2 ∧ EndsAt s t t.pc 11 11)
      ∧ (condHolds s.flags cc = false → ChangesOnly [] s t ∧ EndsAt s t (s.pc + 1) 5 5)

/-! ## Stack, ports and control -/

/-- PUSH rp pushes the pair and PUSH PSW pushes A and the packed flags (R161, R162). -/
def Obligations.PushInstructions : Prop :=
  ∀ s : State,
    (∃ t, exec (.push .bc) s = .next t ∧ Pushes s t s.bc ∧ EndsAt s t (s.pc + 1) 11 11)
    ∧ (∃ t, exec (.push .de) s = .next t ∧ Pushes s t s.de ∧ EndsAt s t (s.pc + 1) 11 11)
    ∧ (∃ t, exec (.push .hl) s = .next t ∧ Pushes s t s.hl ∧ EndsAt s t (s.pc + 1) 11 11)
    ∧ ∃ t v, exec .pushPsw s = .next t ∧ v.toNat = s.a.toNat * 256 + (packFlags s.cfg.mode s.flags).toNat
      ∧ Pushes s t v ∧ EndsAt s t (s.pc + 1) 11 11

/-- POP rp and POP PSW take the top of the stack, low byte at SP (R163, R164). -/
def Obligations.PopInstructions : Prop :=
  ∀ s : State,
    (∃ t, exec (.pop .bc) s = .next t ∧ t.c = s.memRead s.sp ∧ t.b = s.memRead (s.sp + 1) ∧ t.sp = s.sp + 2
      ∧ EndsAt s t (s.pc + 1) 10 10)
    ∧ (∃ t, exec (.pop .de) s = .next t ∧ t.e = s.memRead s.sp ∧ t.d = s.memRead (s.sp + 1) ∧ t.sp = s.sp + 2
      ∧ EndsAt s t (s.pc + 1) 10 10)
    ∧ (∃ t, exec (.pop .hl) s = .next t ∧ t.l = s.memRead s.sp ∧ t.h = s.memRead (s.sp + 1) ∧ t.sp = s.sp + 2
      ∧ EndsAt s t (s.pc + 1) 10 10)
    ∧ ∃ t, exec .popPsw s = .next t ∧ t.a = s.memRead (s.sp + 1)
      ∧ t.flags = unpackFlags s.cfg.mode s.flags (s.memRead s.sp) ∧ t.sp = s.sp + 2 ∧ EndsAt s t (s.pc + 1) 10 10

/-- A word pushed into RAM pops back, and SP is what it was (R160, R206).
The spec marks as its own inference: R160 (general knowledge, D3, derived), R206 (derived) (log entry 11). -/
def Obligations.StackRoundTripInRam : Prop :=
  ∀ (s : State) (v : Word), s.sp - 1 < s.cfg.romBoundary → s.sp - 2 < s.cfg.romBoundary →
    TopOfStack (s.push16 v) v ∧ (s.push16 v).popValue = v ∧ (s.push16 v).popped.sp = s.sp
    ∧ ∀ w, w ≠ s.sp - 1 → w ≠ s.sp - 2 → (s.push16 v).popped.memRead w = s.memRead w

/-- A word pushed into the ROM area is lost: memory is unchanged and a pop gives what memory held; SP is still restored
(R206, C14).
The spec marks as its own inference: R206 (derived) (log entry 11). -/
def Obligations.PushIntoRomIsLost : Prop :=
  ∀ (s : State) (v : Word),
    ¬ s.sp - 1 < s.cfg.romBoundary → ¬ s.sp - 2 < s.cfg.romBoundary →
    inWindow s.cfg (s.sp - 1) = false → inWindow s.cfg (s.sp - 2) = false →
      (∀ w, (s.push16 v).memRead w = s.memRead w)
      ∧ (s.push16 v).popValue.toNat = (s.memRead (s.sp - 2)).toNat + 256 * (s.memRead (s.sp - 1)).toNat
      ∧ (s.push16 v).popped.sp = s.sp

/-- IN takes the host's answer and uses it up; OUT records its event last and leaves the core alone; the decided port
number is the zero-extended operand (R36, R37, R167, R168). Where the host has listed no answer the byte read is the free
value Config.portAnswer (log entry 5), and the order of the record is the model's choice (log entry 7).
The spec marks as its own inference: R36 (D17), R37 (D16, D31), R167 (D16) (log entry 11). -/
def Obligations.PortInstructions : Prop :=
  ∀ (s : State) (n : Byte),
    (∃ t, exec (.inPort n) s = .next t
      ∧ (∀ v rest, s.portAnswers = v :: rest → t.a = v ∧ t.portAnswers = rest ∧ t.portReads = s.portReads)
      ∧ (s.portAnswers = [] → t.a = Config.portAnswer s.portReads (portAddress s.cfg n s.a)
        ∧ t.portAnswers = [] ∧ t.portReads = s.portReads + 1)
      ∧ t.flags = s.flags ∧ EndsAt s t (s.pc + 2) 10 11)
    ∧ (∃ t, exec (.outPort n) s = .next t ∧ t.portLog = s.portLog ++ [(portAddress s.cfg n s.a, s.a)]
      ∧ ChangesOnly [.portLog] s t ∧ EndsAt s t (s.pc + 2) 10 11)
    ∧ (s.cfg.portAddressing = .zeroExtended → (portAddress s.cfg n s.a).toNat = n.toNat)
    ∧ (s.cfg.portAddressing = .accumulatorHigh → (portAddress s.cfg n s.a).toNat = s.a.toNat * 256 + n.toNat)
    ∧ resetParams.portAddressing = .zeroExtended

/-- EI, DI, HLT, NOP and the NOP duplicates (R169 to R172).
The spec marks as its own inference: R169 (D36), R170 (D36), R171 (D8), R172 (D10) (log entry 11). -/
def Obligations.MachineControlInstructions : Prop :=
  ∀ s : State,
    (∃ t, exec .ei s = .next t ∧ t.iff1 = true ∧ t.iff2 = true ∧ ChangesOnly [.iff1, .iff2] s t
      ∧ EndsAt s t (s.pc + 1) 4 4)
    ∧ (∃ t, exec .di s = .next t ∧ t.iff1 = false ∧ t.iff2 = false ∧ ChangesOnly [.iff1, .iff2] s t
      ∧ EndsAt s t (s.pc + 1) 4 4)
    ∧ (∃ t, exec .hlt s = .next t ∧ ChangesOnly [] s t
      ∧ EndsAt s t (if s.cfg.haltAdvancesPc = true then s.pc + 1 else s.pc) 7 4)
    ∧ (∃ t, exec .nop s = .next t ∧ ChangesOnly [] s t ∧ EndsAt s t (s.pc + 1) 4 4)
    ∧ ∀ k, ∃ t, exec (.nopAlias k) s = .next t ∧ ChangesOnly [] s t ∧ t.pc = s.pc + 1
      ∧ (s.cfg.mode = .base → EndsAt s t (s.pc + 1) 4 4)

/-! ## Extended mode -/

/-- EX AF,AF' and EXX exchange the banks, and twice each is the identity but for PC and ticks (R173, R174). -/
def Obligations.ExchangeInstructions : Prop :=
  ∀ s : State, s.cfg.mode = .ext →
    (∃ t, exec .exAfAf s = .next t ∧ t.a = s.alt.a ∧ packFlags .ext t.flags = s.alt.f ∧ t.alt.a = s.a
      ∧ t.alt.f = packFlags .ext s.flags
      ∧ (∀ r : Reg, r ≠ .a → t.reg r = s.reg r ∧ t.alt.reg r = s.alt.reg r) ∧ EndsAt s t (s.pc + 1) 4 4
      ∧ ∃ u, exec .exAfAf t = .next u ∧ u = { s with pc := u.pc, ticks := u.ticks })
    ∧ ∃ t, exec .exx s = .next t
      ∧ (∀ r : Reg, r ≠ .a → t.reg r = s.alt.reg r ∧ t.alt.reg r = s.reg r)
      ∧ t.a = s.a ∧ t.flags = s.flags ∧ t.alt.a = s.alt.a ∧ t.alt.f = s.alt.f ∧ EndsAt s t (s.pc + 1) 4 4
      ∧ ∃ u, exec .exx t = .next u ∧ u = { s with pc := u.pc, ticks := u.ticks }

/-- DJNZ, JR and JR cc: the target is relative to the address after the instruction, the displacement read in two's
complement (R95, R175 to R177). The base PC+2 is the opening sentence of 47_extended_mode.md section 2, which the spec
marks general knowledge and D27 (log entry 11). Costs are those of the decided tables (D23, log entry 8). -/
def Obligations.RelativeJumpInstructions : Prop :=
  ∀ (s : State) (d : Byte), s.cfg.mode = .ext →
    let Taken := fun (t : State) => (t.pc.toNat : Int) = ((s.pc.toNat : Int) + 2 + d.toInt) % 65536
    let Costs := fun (t : State) (n : Nat) => DecidedTicks s.cfg → t.ticks = s.ticks + n
    (∃ t, exec (.djnz d) s = .next t ∧ t.b.toNat = (s.b.toNat + 255) % 256 ∧ t.flags = s.flags
      ∧ (t.b.toNat ≠ 0 → Taken t ∧ Costs t 13)
      ∧ (t.b.toNat = 0 → t.pc = s.pc + 2 ∧ Costs t 8))
    ∧ (∃ t, exec (.jr d) s = .next t ∧ ChangesOnly [] s t ∧ Taken t ∧ Costs t 12)
    ∧ ∀ q : BitVec 2, ∃ t, exec (.jrCc (jrCondOf q) d) s = .next t ∧ ChangesOnly [] s t
      ∧ (condHolds s.flags (condOf (BitVec.setWidth 3 q)) = true → Taken t ∧ Costs t 12)
      ∧ (condHolds s.flags (condOf (BitVec.setWidth 3 q)) = false → t.pc = s.pc + 2 ∧ Costs t 7)

/-- The four prefix bytes advance PC by one, cost PREFIX_TICKS, whose decided value is 0, and do nothing else (R178).
The spec marks as its own inference: R178 (D9) (log entry 11). -/
def Obligations.PrefixByteInstructions : Prop :=
  (∀ s : State, s.cfg.mode = .ext →
    let Skips := fun (i : Instr) =>
      ∃ t, exec i s = .next t ∧ ChangesOnly [] s t ∧ t.pc = s.pc + 1 ∧ t.ticks = s.ticks + s.cfg.prefixTicks
    Skips .prefixCB ∧ Skips .prefixDD ∧ Skips .prefixED ∧ Skips .prefixFD)
  ∧ resetParams.prefixTicks = 0

/-- A prefix byte does not combine with the bytes after it: the next step decodes the following byte on its own (R61).
The spec marks as its own inference: R61 (derived) (log entry 11). -/
def Obligations.PrefixesDoNotCombine : Prop :=
  ∀ s : State, s.cfg.mode = .ext → (s.memRead s.pc).toNat ∈ [0xCB, 0xDD, 0xED, 0xFD] →
    ∃ t, step s = .next t ∧ ChangesOnly [] s t ∧ t.pc = s.pc + 1
      ∧ t.fetch = decodeOpcode .ext (s.memRead (s.pc + 1)) (s.memRead (s.pc + 2)) (s.memRead (s.pc + 3))

/-! ## The whole machine -/

/-- Every step keeps the invariant: canonical memory, and no EXT flag in BASE (R16, R28).
The spec marks as its own inference: R16 (D37) (log entry 11). -/
def Obligations.StepKeepsInvariant : Prop :=
  ∀ s t : State, s.Inv → step s = .next t → t.Inv

/-- The invariant holds at construction, whatever the parameters, registers and memory image, and at State.reset (R16,
R24, R196).
The spec marks as its own inference: R16 (D37), R24 (D6) (log entry 11). -/
def Obligations.ConstructionMeetsInvariant : Prop :=
  (∀ (p : Params) (pc : Word) (regs : InitRegs) (cells : List Host.Cell), (State.construct p pc regs cells).Inv)
  ∧ State.reset.Inv

/-- The frame of every instruction: it changes PC, ticks, the parts R23 lists for it and the flags R96 lists for it in
the mode, and nothing else.
The spec marks as its own inference: R23 (derived), R96 (derived) (log entry 11). -/
def Obligations.InstructionsChangeOnlyTheirParts : Prop :=
  ∀ (i : Instr) (s t : State), exec i s = .next t →
    ChangesOnly (partsWritten s i ++ flagsWritten s.cfg.mode i) s t

/-- Memory after an instruction is memory after the bytes it offers to the bus, in order; so an instruction that offers
none leaves every byte (R35, R42, R69).
The spec marks as its own inference: R35 (derived), R69 (D25) (log entry 11). -/
def Obligations.MemoryAfterOfferedStores : Prop :=
  ∀ (i : Instr) (s t : State), exec i s = .next t →
    ∀ w, t.memRead w = ((stores s i).foldl (fun u x => u.memWrite x.1 x.2) s).memRead w

/-- Every byte outside what the offered stores may change reads as before (R31 to R35).
The spec marks as its own inference: R33 (D18), R34 (D19), R35 (derived) (log entry 11). -/
def Obligations.MemoryFrameOfStores : Prop :=
  ∀ (i : Instr) (s t : State), exec i s = .next t →
    ∀ w, (∀ x ∈ stores s i, ¬ mayChange s.cfg x.1 x.2 w) → t.memRead w = s.memRead w

/-- No step changes the mode or another parameter, IX, IY, I or R, or in BASE the alternate bank; iff1 and iff2 change by
EI and DI alone (R2, R17 to R20, R187).
The spec marks as its own inference: R2 (general knowledge, D1), R17 (D30, D38), R18 (derived), R19 (general
knowledge, D22), R20 (D36) (log entry 11). -/
def Obligations.UnreachedStateIsFixed : Prop :=
  ∀ s t : State, step s = .next t →
    t.cfg = s.cfg ∧ t.ix = s.ix ∧ t.iy = s.iy ∧ t.iReg = s.iReg ∧ t.rReg = s.rReg
    ∧ (s.cfg.mode = .base → t.alt = s.alt)
    ∧ ((s.memRead s.pc).toNat ≠ 0xFB → (s.memRead s.pc).toNat ≠ 0xF3 → t.iff1 = s.iff1 ∧ t.iff2 = s.iff2)

/-- Each instruction adds the entry of its opcode in its mode's tick table, taken or not taken, whatever the tables; and
each step adds that of the opcode at PC (R68, R201, R202). That an instruction which is no conditional transfer pays the
first number of its cell is the model's choice (log entry 8).
The spec marks as its own inference: R68 (D9, D23), R201 (general knowledge, D23, D35), R202 (general knowledge, D9,
D23, derived) (log entry 11). -/
def Obligations.TicksFollowTheTables : Prop :=
  let Cost := fun (s : State) (i : Instr) (op : Byte) =>
    if branchTaken s i = true then (tickEntry s.cfg op).1 else (tickEntry s.cfg op).2
  (∀ (i : Instr) (s t : State), exec i s = .next t → t.ticks = s.ticks + Cost s i i.opcode)
  ∧ (∀ s t : State, step s = .next t → t.ticks = s.ticks + Cost s s.fetch (s.memRead s.pc))
  ∧ DecidedTicks resetParams

/-- Ticks never decrease; at the decided tables every step costs at least 4, but an EXT prefix byte, which costs
PREFIX_TICKS (R203, C18).
The spec marks as its own inference: R203 (derived) (log entry 11). -/
def Obligations.TicksNeverDecrease : Prop :=
  ∀ s t : State, step s = .next t →
    s.ticks ≤ t.ticks
    ∧ (DecidedTicks s.cfg → s.cfg.mode = .base → s.ticks + 4 ≤ t.ticks)
    ∧ (DecidedTicks s.cfg → s.cfg.mode = .ext → (s.memRead s.pc).toNat ∉ [0xCB, 0xDD, 0xED, 0xFD] →
      s.ticks + 4 ≤ t.ticks)

/-- The tick parameters and EXT_FLAG_RULES reach nothing but their own effect. Under other tick tables and another
PREFIX_TICKS a step ends in the same state, ticks and those parameters apart (R201). Under another EXT_FLAG_RULES every
instruction ends in the same state but for fH, fP, f3, f5 and fN, and for DAA with fN set also A, fS and fZ (R91); in
BASE it decides nothing (D12, D13). What a set other than the Z80's leaves free is the model's choice (log entries 8 and 13).
The spec marks as its own inference: R91 (general knowledge, D13, derived), R201 (general knowledge, D23, D35) (log
entry 11). -/
def Obligations.ParametersTouchTheirOwnEffect : Prop :=
  (∀ s t : State, step s = .next t → ∀ (base ext : TickTable) (pre : Nat),
    let With := fun (u : State) (n : Nat) =>
      { u with cfg := { u.cfg with ticksBase := base, ticksExt := ext, prefixTicks := pre }, ticks := n }
    ∃ n, step (With s s.ticks) = .next (With t n))
  ∧ ∀ (i : Instr) (s t : State), exec i s = .next t → ∀ x : ExtFlagRules,
    ∃ u, exec i { s with cfg := { s.cfg with extFlagRules := x } } = .next u
      ∧ u = { t with cfg := { t.cfg with extFlagRules := x }, a := u.a, flags := u.flags }
      ∧ u.flags.fC = t.flags.fC
      ∧ (¬ (i = .daa ∧ s.flags.fN = true) → u.a = t.a ∧ u.flags.fS = t.flags.fS ∧ u.flags.fZ = t.flags.fZ)
      ∧ (s.cfg.mode = .base → u.a = t.a ∧ u.flags = t.flags)

/-- IX, IY, I, R, iff1 and iff2, and in BASE the alternate bank, never affect anything else a step does (R27).
The spec marks as its own inference: R27 (D33, derived) (log entry 11). -/
def Obligations.UnobservableStateDoesNotInterfere : Prop :=
  ∀ s t : State, step s = .next t →
    (∀ (ix iy : Word) (i r : Byte) (f1 f2 : Bool),
      ∃ u, step { s with ix := ix, iy := iy, iReg := i, rReg := r, iff1 := f1, iff2 := f2 } = .next u
        ∧ u = { t with ix := ix, iy := iy, iReg := i, rReg := r, iff1 := u.iff1, iff2 := u.iff2 })
    ∧ (s.cfg.mode = .base → ∀ alt : AltBank,
      ∃ u, step { s with alt := alt } = .next u ∧ u = { t with alt := alt })

/-- On HLT, with HALT_ADVANCES_PC at its decided value, any number of steps adds their ticks, at the decided tables 7 each
in BASE and 4 in EXT, and does nothing else (R171, R74).
The spec marks as its own inference: R74 (D34), R171 (D8) (log entry 11). -/
def Obligations.HaltRepeatsForever : Prop :=
  (∀ (n : Nat) (s : State), s.memRead s.pc = 0x76 → s.cfg.haltAdvancesPc = false →
    Sys2Proof.core.run n s = .next { s with ticks := s.ticks + n * (tickEntry s.cfg 0x76).1 }
    ∧ (DecidedTicks s.cfg → (tickEntry s.cfg 0x76).1 = if s.cfg.mode = .base then 7 else 4))
  ∧ resetParams.haltAdvancesPc = false

/-- The host's actions touch ticks, or one byte of memory past the bus policy, or the port answers, and keep the
invariant (R73, R70). That answers wait in a list is the model's choice (log entry 5).
The spec marks as its own inference: R73 (D19) (log entry 11). -/
def Obligations.HostActionsTouchOneThing : Prop :=
  ∀ s : State,
    (s.hostResetTicks.ticks = 0 ∧ s.hostResetTicks.pc = s.pc ∧ ChangesOnly [] s s.hostResetTicks)
    ∧ (∀ (a : Word) (v : Byte),
      (s.hostWriteMem a v).hostReadMem a = v
      ∧ (∀ w, w ≠ a → (s.hostWriteMem a v).hostReadMem w = s.hostReadMem w)
      ∧ (s.hostWriteMem a v).pc = s.pc ∧ (s.hostWriteMem a v).hostReadTicks = s.hostReadTicks
      ∧ ChangesOnly [.mem] s (s.hostWriteMem a v))
    ∧ (∀ v, (s.hostAnswerPort v).portAnswers = s.portAnswers ++ [v]
      ∧ (s.hostAnswerPort v).pc = s.pc ∧ (s.hostAnswerPort v).ticks = s.ticks
      ∧ ChangesOnly [.portInput] s (s.hostAnswerPort v))
    ∧ ∀ x : HostAction, s.Inv → (s.hostAct x).Inv

/-- Construction gives every register its INIT_REGS value, PC its RESET_PC, memory its INIT_MEM, ticks 0, and in BASE
clears f3, f5 and fN (R24, R25, R29, R196, R197).
The spec marks as its own inference: R24 (D6), R25 (D24), R29 (D7), R197 (general knowledge, D5) (log entry 11). -/
def Obligations.ConstructionSetsEveryField : Prop :=
  ∀ (p : Params) (pc : Word) (regs : InitRegs) (cells : List Host.Cell),
    let s := State.construct p pc regs cells
    s.cfg = p ∧ s.pc = pc ∧ s.ticks = 0 ∧ s.sp = regs.sp ∧ s.alt = regs.alt
    ∧ s.a = regs.a ∧ s.b = regs.b ∧ s.c = regs.c ∧ s.d = regs.d ∧ s.e = regs.e ∧ s.h = regs.h ∧ s.l = regs.l
    ∧ s.ix = regs.ix ∧ s.iy = regs.iy ∧ s.iReg = regs.iReg ∧ s.rReg = regs.rReg
    ∧ s.iff1 = regs.iff1 ∧ s.iff2 = regs.iff2
    ∧ s.flags.fS = regs.flags.fS ∧ s.flags.fZ = regs.flags.fZ ∧ s.flags.fH = regs.flags.fH
    ∧ s.flags.fP = regs.flags.fP ∧ s.flags.fC = regs.flags.fC
    ∧ (p.mode = .base → s.flags.f3 = false ∧ s.flags.f5 = false ∧ s.flags.fN = false)
    ∧ (p.mode = .ext → s.flags = regs.flags)
    ∧ ∀ a v, (State.construct p pc regs (cells ++ [(a, v)])).memRead (BitVec.ofNat 16 a) = v
      ∧ ∀ w, w ≠ BitVec.ofNat 16 a → (State.construct p pc regs (cells ++ [(a, v)])).memRead w = s.memRead w
end

