-- ==== Sys2Proof/Laws/State.lean ====
section
/-! SUPPORT. What each state update does to each field, so that no proof unfolds a record update. -/

namespace Sys2Proof.Machine

/-! ## memWrite -/

@[simp] theorem State.memWrite_a (s : State) (w : Word) (v : Byte) : (s.memWrite w v).a = s.a := rfl
@[simp] theorem State.memWrite_b (s : State) (w : Word) (v : Byte) : (s.memWrite w v).b = s.b := rfl
@[simp] theorem State.memWrite_c (s : State) (w : Word) (v : Byte) : (s.memWrite w v).c = s.c := rfl
@[simp] theorem State.memWrite_d (s : State) (w : Word) (v : Byte) : (s.memWrite w v).d = s.d := rfl
@[simp] theorem State.memWrite_e (s : State) (w : Word) (v : Byte) : (s.memWrite w v).e = s.e := rfl
@[simp] theorem State.memWrite_h (s : State) (w : Word) (v : Byte) : (s.memWrite w v).h = s.h := rfl
@[simp] theorem State.memWrite_l (s : State) (w : Word) (v : Byte) : (s.memWrite w v).l = s.l := rfl
@[simp] theorem State.memWrite_sp (s : State) (w : Word) (v : Byte) : (s.memWrite w v).sp = s.sp := rfl
@[simp] theorem State.memWrite_pc (s : State) (w : Word) (v : Byte) : (s.memWrite w v).pc = s.pc := rfl
@[simp] theorem State.memWrite_flags (s : State) (w : Word) (v : Byte) : (s.memWrite w v).flags = s.flags := rfl
@[simp] theorem State.memWrite_alt (s : State) (w : Word) (v : Byte) : (s.memWrite w v).alt = s.alt := rfl
@[simp] theorem State.memWrite_ix (s : State) (w : Word) (v : Byte) : (s.memWrite w v).ix = s.ix := rfl
@[simp] theorem State.memWrite_iy (s : State) (w : Word) (v : Byte) : (s.memWrite w v).iy = s.iy := rfl
@[simp] theorem State.memWrite_iReg (s : State) (w : Word) (v : Byte) : (s.memWrite w v).iReg = s.iReg := rfl
@[simp] theorem State.memWrite_rReg (s : State) (w : Word) (v : Byte) : (s.memWrite w v).rReg = s.rReg := rfl
@[simp] theorem State.memWrite_iff1 (s : State) (w : Word) (v : Byte) : (s.memWrite w v).iff1 = s.iff1 := rfl
@[simp] theorem State.memWrite_iff2 (s : State) (w : Word) (v : Byte) : (s.memWrite w v).iff2 = s.iff2 := rfl
@[simp] theorem State.memWrite_ticks (s : State) (w : Word) (v : Byte) : (s.memWrite w v).ticks = s.ticks := rfl
@[simp] theorem State.memWrite_mem (s : State) (w : Word) (v : Byte) : (s.memWrite w v).mem = busWrite s.cfg s.mem w v := rfl
@[simp] theorem State.memWrite_portAnswers (s : State) (w : Word) (v : Byte) : (s.memWrite w v).portAnswers = s.portAnswers := rfl
@[simp] theorem State.memWrite_portReads (s : State) (w : Word) (v : Byte) : (s.memWrite w v).portReads = s.portReads := rfl
@[simp] theorem State.memWrite_portLog (s : State) (w : Word) (v : Byte) : (s.memWrite w v).portLog = s.portLog := rfl
@[simp] theorem State.memWrite_cfg (s : State) (w : Word) (v : Byte) : (s.memWrite w v).cfg = s.cfg := rfl

/-! ## memWrite16 -/

@[simp] theorem State.memWrite16_a (s : State) (w v : Word) : (s.memWrite16 w v).a = s.a := rfl
@[simp] theorem State.memWrite16_b (s : State) (w v : Word) : (s.memWrite16 w v).b = s.b := rfl
@[simp] theorem State.memWrite16_c (s : State) (w v : Word) : (s.memWrite16 w v).c = s.c := rfl
@[simp] theorem State.memWrite16_d (s : State) (w v : Word) : (s.memWrite16 w v).d = s.d := rfl
@[simp] theorem State.memWrite16_e (s : State) (w v : Word) : (s.memWrite16 w v).e = s.e := rfl
@[simp] theorem State.memWrite16_h (s : State) (w v : Word) : (s.memWrite16 w v).h = s.h := rfl
@[simp] theorem State.memWrite16_l (s : State) (w v : Word) : (s.memWrite16 w v).l = s.l := rfl
@[simp] theorem State.memWrite16_sp (s : State) (w v : Word) : (s.memWrite16 w v).sp = s.sp := rfl
@[simp] theorem State.memWrite16_pc (s : State) (w v : Word) : (s.memWrite16 w v).pc = s.pc := rfl
@[simp] theorem State.memWrite16_flags (s : State) (w v : Word) : (s.memWrite16 w v).flags = s.flags := rfl
@[simp] theorem State.memWrite16_alt (s : State) (w v : Word) : (s.memWrite16 w v).alt = s.alt := rfl
@[simp] theorem State.memWrite16_ix (s : State) (w v : Word) : (s.memWrite16 w v).ix = s.ix := rfl
@[simp] theorem State.memWrite16_iy (s : State) (w v : Word) : (s.memWrite16 w v).iy = s.iy := rfl
@[simp] theorem State.memWrite16_iReg (s : State) (w v : Word) : (s.memWrite16 w v).iReg = s.iReg := rfl
@[simp] theorem State.memWrite16_rReg (s : State) (w v : Word) : (s.memWrite16 w v).rReg = s.rReg := rfl
@[simp] theorem State.memWrite16_iff1 (s : State) (w v : Word) : (s.memWrite16 w v).iff1 = s.iff1 := rfl
@[simp] theorem State.memWrite16_iff2 (s : State) (w v : Word) : (s.memWrite16 w v).iff2 = s.iff2 := rfl
@[simp] theorem State.memWrite16_ticks (s : State) (w v : Word) : (s.memWrite16 w v).ticks = s.ticks := rfl
@[simp] theorem State.memWrite16_mem (s : State) (w v : Word) : (s.memWrite16 w v).mem = busWrite s.cfg (busWrite s.cfg s.mem w (loByte v)) (w + 1) (hiByte v) := rfl
@[simp] theorem State.memWrite16_portAnswers (s : State) (w v : Word) : (s.memWrite16 w v).portAnswers = s.portAnswers := rfl
@[simp] theorem State.memWrite16_portReads (s : State) (w v : Word) : (s.memWrite16 w v).portReads = s.portReads := rfl
@[simp] theorem State.memWrite16_portLog (s : State) (w v : Word) : (s.memWrite16 w v).portLog = s.portLog := rfl
@[simp] theorem State.memWrite16_cfg (s : State) (w v : Word) : (s.memWrite16 w v).cfg = s.cfg := rfl

/-! ## setMemHl -/

@[simp] theorem State.setMemHl_a (s : State) (v : Byte) : (s.setMemHl v).a = s.a := rfl
@[simp] theorem State.setMemHl_b (s : State) (v : Byte) : (s.setMemHl v).b = s.b := rfl
@[simp] theorem State.setMemHl_c (s : State) (v : Byte) : (s.setMemHl v).c = s.c := rfl
@[simp] theorem State.setMemHl_d (s : State) (v : Byte) : (s.setMemHl v).d = s.d := rfl
@[simp] theorem State.setMemHl_e (s : State) (v : Byte) : (s.setMemHl v).e = s.e := rfl
@[simp] theorem State.setMemHl_h (s : State) (v : Byte) : (s.setMemHl v).h = s.h := rfl
@[simp] theorem State.setMemHl_l (s : State) (v : Byte) : (s.setMemHl v).l = s.l := rfl
@[simp] theorem State.setMemHl_sp (s : State) (v : Byte) : (s.setMemHl v).sp = s.sp := rfl
@[simp] theorem State.setMemHl_pc (s : State) (v : Byte) : (s.setMemHl v).pc = s.pc := rfl
@[simp] theorem State.setMemHl_flags (s : State) (v : Byte) : (s.setMemHl v).flags = s.flags := rfl
@[simp] theorem State.setMemHl_alt (s : State) (v : Byte) : (s.setMemHl v).alt = s.alt := rfl
@[simp] theorem State.setMemHl_ix (s : State) (v : Byte) : (s.setMemHl v).ix = s.ix := rfl
@[simp] theorem State.setMemHl_iy (s : State) (v : Byte) : (s.setMemHl v).iy = s.iy := rfl
@[simp] theorem State.setMemHl_iReg (s : State) (v : Byte) : (s.setMemHl v).iReg = s.iReg := rfl
@[simp] theorem State.setMemHl_rReg (s : State) (v : Byte) : (s.setMemHl v).rReg = s.rReg := rfl
@[simp] theorem State.setMemHl_iff1 (s : State) (v : Byte) : (s.setMemHl v).iff1 = s.iff1 := rfl
@[simp] theorem State.setMemHl_iff2 (s : State) (v : Byte) : (s.setMemHl v).iff2 = s.iff2 := rfl
@[simp] theorem State.setMemHl_ticks (s : State) (v : Byte) : (s.setMemHl v).ticks = s.ticks := rfl
@[simp] theorem State.setMemHl_mem (s : State) (v : Byte) : (s.setMemHl v).mem = busWrite s.cfg s.mem s.hl v := rfl
@[simp] theorem State.setMemHl_portAnswers (s : State) (v : Byte) : (s.setMemHl v).portAnswers = s.portAnswers := rfl
@[simp] theorem State.setMemHl_portReads (s : State) (v : Byte) : (s.setMemHl v).portReads = s.portReads := rfl
@[simp] theorem State.setMemHl_portLog (s : State) (v : Byte) : (s.setMemHl v).portLog = s.portLog := rfl
@[simp] theorem State.setMemHl_cfg (s : State) (v : Byte) : (s.setMemHl v).cfg = s.cfg := rfl

/-! ## push16 -/

@[simp] theorem State.push16_a (s : State) (v : Word) : (s.push16 v).a = s.a := rfl
@[simp] theorem State.push16_b (s : State) (v : Word) : (s.push16 v).b = s.b := rfl
@[simp] theorem State.push16_c (s : State) (v : Word) : (s.push16 v).c = s.c := rfl
@[simp] theorem State.push16_d (s : State) (v : Word) : (s.push16 v).d = s.d := rfl
@[simp] theorem State.push16_e (s : State) (v : Word) : (s.push16 v).e = s.e := rfl
@[simp] theorem State.push16_h (s : State) (v : Word) : (s.push16 v).h = s.h := rfl
@[simp] theorem State.push16_l (s : State) (v : Word) : (s.push16 v).l = s.l := rfl
@[simp] theorem State.push16_sp (s : State) (v : Word) : (s.push16 v).sp = s.sp - 1 - 1 := rfl
@[simp] theorem State.push16_pc (s : State) (v : Word) : (s.push16 v).pc = s.pc := rfl
@[simp] theorem State.push16_flags (s : State) (v : Word) : (s.push16 v).flags = s.flags := rfl
@[simp] theorem State.push16_alt (s : State) (v : Word) : (s.push16 v).alt = s.alt := rfl
@[simp] theorem State.push16_ix (s : State) (v : Word) : (s.push16 v).ix = s.ix := rfl
@[simp] theorem State.push16_iy (s : State) (v : Word) : (s.push16 v).iy = s.iy := rfl
@[simp] theorem State.push16_iReg (s : State) (v : Word) : (s.push16 v).iReg = s.iReg := rfl
@[simp] theorem State.push16_rReg (s : State) (v : Word) : (s.push16 v).rReg = s.rReg := rfl
@[simp] theorem State.push16_iff1 (s : State) (v : Word) : (s.push16 v).iff1 = s.iff1 := rfl
@[simp] theorem State.push16_iff2 (s : State) (v : Word) : (s.push16 v).iff2 = s.iff2 := rfl
@[simp] theorem State.push16_ticks (s : State) (v : Word) : (s.push16 v).ticks = s.ticks := rfl
@[simp] theorem State.push16_mem (s : State) (v : Word) : (s.push16 v).mem = busWrite s.cfg (busWrite s.cfg s.mem (s.sp - 1) (hiByte v)) (s.sp - 1 - 1) (loByte v) := rfl
@[simp] theorem State.push16_portAnswers (s : State) (v : Word) : (s.push16 v).portAnswers = s.portAnswers := rfl
@[simp] theorem State.push16_portReads (s : State) (v : Word) : (s.push16 v).portReads = s.portReads := rfl
@[simp] theorem State.push16_portLog (s : State) (v : Word) : (s.push16 v).portLog = s.portLog := rfl
@[simp] theorem State.push16_cfg (s : State) (v : Word) : (s.push16 v).cfg = s.cfg := rfl

/-! ## popped -/

@[simp] theorem State.popped_a (s : State) : s.popped.a = s.a := rfl
@[simp] theorem State.popped_b (s : State) : s.popped.b = s.b := rfl
@[simp] theorem State.popped_c (s : State) : s.popped.c = s.c := rfl
@[simp] theorem State.popped_d (s : State) : s.popped.d = s.d := rfl
@[simp] theorem State.popped_e (s : State) : s.popped.e = s.e := rfl
@[simp] theorem State.popped_h (s : State) : s.popped.h = s.h := rfl
@[simp] theorem State.popped_l (s : State) : s.popped.l = s.l := rfl
@[simp] theorem State.popped_sp (s : State) : s.popped.sp = s.sp + 1 + 1 := rfl
@[simp] theorem State.popped_pc (s : State) : s.popped.pc = s.pc := rfl
@[simp] theorem State.popped_flags (s : State) : s.popped.flags = s.flags := rfl
@[simp] theorem State.popped_alt (s : State) : s.popped.alt = s.alt := rfl
@[simp] theorem State.popped_ix (s : State) : s.popped.ix = s.ix := rfl
@[simp] theorem State.popped_iy (s : State) : s.popped.iy = s.iy := rfl
@[simp] theorem State.popped_iReg (s : State) : s.popped.iReg = s.iReg := rfl
@[simp] theorem State.popped_rReg (s : State) : s.popped.rReg = s.rReg := rfl
@[simp] theorem State.popped_iff1 (s : State) : s.popped.iff1 = s.iff1 := rfl
@[simp] theorem State.popped_iff2 (s : State) : s.popped.iff2 = s.iff2 := rfl
@[simp] theorem State.popped_ticks (s : State) : s.popped.ticks = s.ticks := rfl
@[simp] theorem State.popped_mem (s : State) : s.popped.mem = s.mem := rfl
@[simp] theorem State.popped_portAnswers (s : State) : s.popped.portAnswers = s.portAnswers := rfl
@[simp] theorem State.popped_portReads (s : State) : s.popped.portReads = s.portReads := rfl
@[simp] theorem State.popped_portLog (s : State) : s.popped.portLog = s.portLog := rfl
@[simp] theorem State.popped_cfg (s : State) : s.popped.cfg = s.cfg := rfl

/-! ## portWrite -/

@[simp] theorem State.portWrite_a (s : State) (p : Word) (v : Byte) : (s.portWrite p v).a = s.a := rfl
@[simp] theorem State.portWrite_b (s : State) (p : Word) (v : Byte) : (s.portWrite p v).b = s.b := rfl
@[simp] theorem State.portWrite_c (s : State) (p : Word) (v : Byte) : (s.portWrite p v).c = s.c := rfl
@[simp] theorem State.portWrite_d (s : State) (p : Word) (v : Byte) : (s.portWrite p v).d = s.d := rfl
@[simp] theorem State.portWrite_e (s : State) (p : Word) (v : Byte) : (s.portWrite p v).e = s.e := rfl
@[simp] theorem State.portWrite_h (s : State) (p : Word) (v : Byte) : (s.portWrite p v).h = s.h := rfl
@[simp] theorem State.portWrite_l (s : State) (p : Word) (v : Byte) : (s.portWrite p v).l = s.l := rfl
@[simp] theorem State.portWrite_sp (s : State) (p : Word) (v : Byte) : (s.portWrite p v).sp = s.sp := rfl
@[simp] theorem State.portWrite_pc (s : State) (p : Word) (v : Byte) : (s.portWrite p v).pc = s.pc := rfl
@[simp] theorem State.portWrite_flags (s : State) (p : Word) (v : Byte) : (s.portWrite p v).flags = s.flags := rfl
@[simp] theorem State.portWrite_alt (s : State) (p : Word) (v : Byte) : (s.portWrite p v).alt = s.alt := rfl
@[simp] theorem State.portWrite_ix (s : State) (p : Word) (v : Byte) : (s.portWrite p v).ix = s.ix := rfl
@[simp] theorem State.portWrite_iy (s : State) (p : Word) (v : Byte) : (s.portWrite p v).iy = s.iy := rfl
@[simp] theorem State.portWrite_iReg (s : State) (p : Word) (v : Byte) : (s.portWrite p v).iReg = s.iReg := rfl
@[simp] theorem State.portWrite_rReg (s : State) (p : Word) (v : Byte) : (s.portWrite p v).rReg = s.rReg := rfl
@[simp] theorem State.portWrite_iff1 (s : State) (p : Word) (v : Byte) : (s.portWrite p v).iff1 = s.iff1 := rfl
@[simp] theorem State.portWrite_iff2 (s : State) (p : Word) (v : Byte) : (s.portWrite p v).iff2 = s.iff2 := rfl
@[simp] theorem State.portWrite_ticks (s : State) (p : Word) (v : Byte) : (s.portWrite p v).ticks = s.ticks := rfl
@[simp] theorem State.portWrite_mem (s : State) (p : Word) (v : Byte) : (s.portWrite p v).mem = s.mem := rfl
@[simp] theorem State.portWrite_portAnswers (s : State) (p : Word) (v : Byte) : (s.portWrite p v).portAnswers = s.portAnswers := rfl
@[simp] theorem State.portWrite_portReads (s : State) (p : Word) (v : Byte) : (s.portWrite p v).portReads = s.portReads := rfl
@[simp] theorem State.portWrite_portLog (s : State) (p : Word) (v : Byte) : (s.portWrite p v).portLog = s.portLog ++ [(p, v)] := rfl
@[simp] theorem State.portWrite_cfg (s : State) (p : Word) (v : Byte) : (s.portWrite p v).cfg = s.cfg := rfl

/-! ## advance -/

@[simp] theorem State.advance_a (s : State) (i : Instr) (len : Word) : (s.advance i len).a = s.a := rfl
@[simp] theorem State.advance_b (s : State) (i : Instr) (len : Word) : (s.advance i len).b = s.b := rfl
@[simp] theorem State.advance_c (s : State) (i : Instr) (len : Word) : (s.advance i len).c = s.c := rfl
@[simp] theorem State.advance_d (s : State) (i : Instr) (len : Word) : (s.advance i len).d = s.d := rfl
@[simp] theorem State.advance_e (s : State) (i : Instr) (len : Word) : (s.advance i len).e = s.e := rfl
@[simp] theorem State.advance_h (s : State) (i : Instr) (len : Word) : (s.advance i len).h = s.h := rfl
@[simp] theorem State.advance_l (s : State) (i : Instr) (len : Word) : (s.advance i len).l = s.l := rfl
@[simp] theorem State.advance_sp (s : State) (i : Instr) (len : Word) : (s.advance i len).sp = s.sp := rfl
@[simp] theorem State.advance_pc (s : State) (i : Instr) (len : Word) : (s.advance i len).pc = s.pc + len := rfl
@[simp] theorem State.advance_flags (s : State) (i : Instr) (len : Word) : (s.advance i len).flags = s.flags := rfl
@[simp] theorem State.advance_alt (s : State) (i : Instr) (len : Word) : (s.advance i len).alt = s.alt := rfl
@[simp] theorem State.advance_ix (s : State) (i : Instr) (len : Word) : (s.advance i len).ix = s.ix := rfl
@[simp] theorem State.advance_iy (s : State) (i : Instr) (len : Word) : (s.advance i len).iy = s.iy := rfl
@[simp] theorem State.advance_iReg (s : State) (i : Instr) (len : Word) : (s.advance i len).iReg = s.iReg := rfl
@[simp] theorem State.advance_rReg (s : State) (i : Instr) (len : Word) : (s.advance i len).rReg = s.rReg := rfl
@[simp] theorem State.advance_iff1 (s : State) (i : Instr) (len : Word) : (s.advance i len).iff1 = s.iff1 := rfl
@[simp] theorem State.advance_iff2 (s : State) (i : Instr) (len : Word) : (s.advance i len).iff2 = s.iff2 := rfl
@[simp] theorem State.advance_ticks (s : State) (i : Instr) (len : Word) : (s.advance i len).ticks = s.ticks + s.cost i true := rfl
@[simp] theorem State.advance_mem (s : State) (i : Instr) (len : Word) : (s.advance i len).mem = s.mem := rfl
@[simp] theorem State.advance_portAnswers (s : State) (i : Instr) (len : Word) : (s.advance i len).portAnswers = s.portAnswers := rfl
@[simp] theorem State.advance_portReads (s : State) (i : Instr) (len : Word) : (s.advance i len).portReads = s.portReads := rfl
@[simp] theorem State.advance_portLog (s : State) (i : Instr) (len : Word) : (s.advance i len).portLog = s.portLog := rfl
@[simp] theorem State.advance_cfg (s : State) (i : Instr) (len : Word) : (s.advance i len).cfg = s.cfg := rfl

/-! ## fallThrough -/

@[simp] theorem State.fallThrough_a (s : State) (i : Instr) (len : Word) : (s.fallThrough i len).a = s.a := rfl
@[simp] theorem State.fallThrough_b (s : State) (i : Instr) (len : Word) : (s.fallThrough i len).b = s.b := rfl
@[simp] theorem State.fallThrough_c (s : State) (i : Instr) (len : Word) : (s.fallThrough i len).c = s.c := rfl
@[simp] theorem State.fallThrough_d (s : State) (i : Instr) (len : Word) : (s.fallThrough i len).d = s.d := rfl
@[simp] theorem State.fallThrough_e (s : State) (i : Instr) (len : Word) : (s.fallThrough i len).e = s.e := rfl
@[simp] theorem State.fallThrough_h (s : State) (i : Instr) (len : Word) : (s.fallThrough i len).h = s.h := rfl
@[simp] theorem State.fallThrough_l (s : State) (i : Instr) (len : Word) : (s.fallThrough i len).l = s.l := rfl
@[simp] theorem State.fallThrough_sp (s : State) (i : Instr) (len : Word) : (s.fallThrough i len).sp = s.sp := rfl
@[simp] theorem State.fallThrough_pc (s : State) (i : Instr) (len : Word) : (s.fallThrough i len).pc = s.pc + len := rfl
@[simp] theorem State.fallThrough_flags (s : State) (i : Instr) (len : Word) : (s.fallThrough i len).flags = s.flags := rfl
@[simp] theorem State.fallThrough_alt (s : State) (i : Instr) (len : Word) : (s.fallThrough i len).alt = s.alt := rfl
@[simp] theorem State.fallThrough_ix (s : State) (i : Instr) (len : Word) : (s.fallThrough i len).ix = s.ix := rfl
@[simp] theorem State.fallThrough_iy (s : State) (i : Instr) (len : Word) : (s.fallThrough i len).iy = s.iy := rfl
@[simp] theorem State.fallThrough_iReg (s : State) (i : Instr) (len : Word) : (s.fallThrough i len).iReg = s.iReg := rfl
@[simp] theorem State.fallThrough_rReg (s : State) (i : Instr) (len : Word) : (s.fallThrough i len).rReg = s.rReg := rfl
@[simp] theorem State.fallThrough_iff1 (s : State) (i : Instr) (len : Word) : (s.fallThrough i len).iff1 = s.iff1 := rfl
@[simp] theorem State.fallThrough_iff2 (s : State) (i : Instr) (len : Word) : (s.fallThrough i len).iff2 = s.iff2 := rfl
@[simp] theorem State.fallThrough_ticks (s : State) (i : Instr) (len : Word) : (s.fallThrough i len).ticks = s.ticks + s.cost i false := rfl
@[simp] theorem State.fallThrough_mem (s : State) (i : Instr) (len : Word) : (s.fallThrough i len).mem = s.mem := rfl
@[simp] theorem State.fallThrough_portAnswers (s : State) (i : Instr) (len : Word) : (s.fallThrough i len).portAnswers = s.portAnswers := rfl
@[simp] theorem State.fallThrough_portReads (s : State) (i : Instr) (len : Word) : (s.fallThrough i len).portReads = s.portReads := rfl
@[simp] theorem State.fallThrough_portLog (s : State) (i : Instr) (len : Word) : (s.fallThrough i len).portLog = s.portLog := rfl
@[simp] theorem State.fallThrough_cfg (s : State) (i : Instr) (len : Word) : (s.fallThrough i len).cfg = s.cfg := rfl

/-! ## jumpTo -/

@[simp] theorem State.jumpTo_a (s : State) (i : Instr) (target : Word) : (s.jumpTo i target).a = s.a := rfl
@[simp] theorem State.jumpTo_b (s : State) (i : Instr) (target : Word) : (s.jumpTo i target).b = s.b := rfl
@[simp] theorem State.jumpTo_c (s : State) (i : Instr) (target : Word) : (s.jumpTo i target).c = s.c := rfl
@[simp] theorem State.jumpTo_d (s : State) (i : Instr) (target : Word) : (s.jumpTo i target).d = s.d := rfl
@[simp] theorem State.jumpTo_e (s : State) (i : Instr) (target : Word) : (s.jumpTo i target).e = s.e := rfl
@[simp] theorem State.jumpTo_h (s : State) (i : Instr) (target : Word) : (s.jumpTo i target).h = s.h := rfl
@[simp] theorem State.jumpTo_l (s : State) (i : Instr) (target : Word) : (s.jumpTo i target).l = s.l := rfl
@[simp] theorem State.jumpTo_sp (s : State) (i : Instr) (target : Word) : (s.jumpTo i target).sp = s.sp := rfl
@[simp] theorem State.jumpTo_pc (s : State) (i : Instr) (target : Word) : (s.jumpTo i target).pc = target := rfl
@[simp] theorem State.jumpTo_flags (s : State) (i : Instr) (target : Word) : (s.jumpTo i target).flags = s.flags := rfl
@[simp] theorem State.jumpTo_alt (s : State) (i : Instr) (target : Word) : (s.jumpTo i target).alt = s.alt := rfl
@[simp] theorem State.jumpTo_ix (s : State) (i : Instr) (target : Word) : (s.jumpTo i target).ix = s.ix := rfl
@[simp] theorem State.jumpTo_iy (s : State) (i : Instr) (target : Word) : (s.jumpTo i target).iy = s.iy := rfl
@[simp] theorem State.jumpTo_iReg (s : State) (i : Instr) (target : Word) : (s.jumpTo i target).iReg = s.iReg := rfl
@[simp] theorem State.jumpTo_rReg (s : State) (i : Instr) (target : Word) : (s.jumpTo i target).rReg = s.rReg := rfl
@[simp] theorem State.jumpTo_iff1 (s : State) (i : Instr) (target : Word) : (s.jumpTo i target).iff1 = s.iff1 := rfl
@[simp] theorem State.jumpTo_iff2 (s : State) (i : Instr) (target : Word) : (s.jumpTo i target).iff2 = s.iff2 := rfl
@[simp] theorem State.jumpTo_ticks (s : State) (i : Instr) (target : Word) : (s.jumpTo i target).ticks = s.ticks + s.cost i true := rfl
@[simp] theorem State.jumpTo_mem (s : State) (i : Instr) (target : Word) : (s.jumpTo i target).mem = s.mem := rfl
@[simp] theorem State.jumpTo_portAnswers (s : State) (i : Instr) (target : Word) : (s.jumpTo i target).portAnswers = s.portAnswers := rfl
@[simp] theorem State.jumpTo_portReads (s : State) (i : Instr) (target : Word) : (s.jumpTo i target).portReads = s.portReads := rfl
@[simp] theorem State.jumpTo_portLog (s : State) (i : Instr) (target : Word) : (s.jumpTo i target).portLog = s.portLog := rfl
@[simp] theorem State.jumpTo_cfg (s : State) (i : Instr) (target : Word) : (s.jumpTo i target).cfg = s.cfg := rfl

/-! ## setBc -/

@[simp] theorem State.setBc_a (s : State) (w : Word) : (s.setBc w).a = s.a := rfl
@[simp] theorem State.setBc_b (s : State) (w : Word) : (s.setBc w).b = hiByte w := rfl
@[simp] theorem State.setBc_c (s : State) (w : Word) : (s.setBc w).c = loByte w := rfl
@[simp] theorem State.setBc_d (s : State) (w : Word) : (s.setBc w).d = s.d := rfl
@[simp] theorem State.setBc_e (s : State) (w : Word) : (s.setBc w).e = s.e := rfl
@[simp] theorem State.setBc_h (s : State) (w : Word) : (s.setBc w).h = s.h := rfl
@[simp] theorem State.setBc_l (s : State) (w : Word) : (s.setBc w).l = s.l := rfl
@[simp] theorem State.setBc_sp (s : State) (w : Word) : (s.setBc w).sp = s.sp := rfl
@[simp] theorem State.setBc_pc (s : State) (w : Word) : (s.setBc w).pc = s.pc := rfl
@[simp] theorem State.setBc_flags (s : State) (w : Word) : (s.setBc w).flags = s.flags := rfl
@[simp] theorem State.setBc_alt (s : State) (w : Word) : (s.setBc w).alt = s.alt := rfl
@[simp] theorem State.setBc_ix (s : State) (w : Word) : (s.setBc w).ix = s.ix := rfl
@[simp] theorem State.setBc_iy (s : State) (w : Word) : (s.setBc w).iy = s.iy := rfl
@[simp] theorem State.setBc_iReg (s : State) (w : Word) : (s.setBc w).iReg = s.iReg := rfl
@[simp] theorem State.setBc_rReg (s : State) (w : Word) : (s.setBc w).rReg = s.rReg := rfl
@[simp] theorem State.setBc_iff1 (s : State) (w : Word) : (s.setBc w).iff1 = s.iff1 := rfl
@[simp] theorem State.setBc_iff2 (s : State) (w : Word) : (s.setBc w).iff2 = s.iff2 := rfl
@[simp] theorem State.setBc_ticks (s : State) (w : Word) : (s.setBc w).ticks = s.ticks := rfl
@[simp] theorem State.setBc_mem (s : State) (w : Word) : (s.setBc w).mem = s.mem := rfl
@[simp] theorem State.setBc_portAnswers (s : State) (w : Word) : (s.setBc w).portAnswers = s.portAnswers := rfl
@[simp] theorem State.setBc_portReads (s : State) (w : Word) : (s.setBc w).portReads = s.portReads := rfl
@[simp] theorem State.setBc_portLog (s : State) (w : Word) : (s.setBc w).portLog = s.portLog := rfl
@[simp] theorem State.setBc_cfg (s : State) (w : Word) : (s.setBc w).cfg = s.cfg := rfl

/-! ## setDe -/

@[simp] theorem State.setDe_a (s : State) (w : Word) : (s.setDe w).a = s.a := rfl
@[simp] theorem State.setDe_b (s : State) (w : Word) : (s.setDe w).b = s.b := rfl
@[simp] theorem State.setDe_c (s : State) (w : Word) : (s.setDe w).c = s.c := rfl
@[simp] theorem State.setDe_d (s : State) (w : Word) : (s.setDe w).d = hiByte w := rfl
@[simp] theorem State.setDe_e (s : State) (w : Word) : (s.setDe w).e = loByte w := rfl
@[simp] theorem State.setDe_h (s : State) (w : Word) : (s.setDe w).h = s.h := rfl
@[simp] theorem State.setDe_l (s : State) (w : Word) : (s.setDe w).l = s.l := rfl
@[simp] theorem State.setDe_sp (s : State) (w : Word) : (s.setDe w).sp = s.sp := rfl
@[simp] theorem State.setDe_pc (s : State) (w : Word) : (s.setDe w).pc = s.pc := rfl
@[simp] theorem State.setDe_flags (s : State) (w : Word) : (s.setDe w).flags = s.flags := rfl
@[simp] theorem State.setDe_alt (s : State) (w : Word) : (s.setDe w).alt = s.alt := rfl
@[simp] theorem State.setDe_ix (s : State) (w : Word) : (s.setDe w).ix = s.ix := rfl
@[simp] theorem State.setDe_iy (s : State) (w : Word) : (s.setDe w).iy = s.iy := rfl
@[simp] theorem State.setDe_iReg (s : State) (w : Word) : (s.setDe w).iReg = s.iReg := rfl
@[simp] theorem State.setDe_rReg (s : State) (w : Word) : (s.setDe w).rReg = s.rReg := rfl
@[simp] theorem State.setDe_iff1 (s : State) (w : Word) : (s.setDe w).iff1 = s.iff1 := rfl
@[simp] theorem State.setDe_iff2 (s : State) (w : Word) : (s.setDe w).iff2 = s.iff2 := rfl
@[simp] theorem State.setDe_ticks (s : State) (w : Word) : (s.setDe w).ticks = s.ticks := rfl
@[simp] theorem State.setDe_mem (s : State) (w : Word) : (s.setDe w).mem = s.mem := rfl
@[simp] theorem State.setDe_portAnswers (s : State) (w : Word) : (s.setDe w).portAnswers = s.portAnswers := rfl
@[simp] theorem State.setDe_portReads (s : State) (w : Word) : (s.setDe w).portReads = s.portReads := rfl
@[simp] theorem State.setDe_portLog (s : State) (w : Word) : (s.setDe w).portLog = s.portLog := rfl
@[simp] theorem State.setDe_cfg (s : State) (w : Word) : (s.setDe w).cfg = s.cfg := rfl

/-! ## setHl -/

@[simp] theorem State.setHl_a (s : State) (w : Word) : (s.setHl w).a = s.a := rfl
@[simp] theorem State.setHl_b (s : State) (w : Word) : (s.setHl w).b = s.b := rfl
@[simp] theorem State.setHl_c (s : State) (w : Word) : (s.setHl w).c = s.c := rfl
@[simp] theorem State.setHl_d (s : State) (w : Word) : (s.setHl w).d = s.d := rfl
@[simp] theorem State.setHl_e (s : State) (w : Word) : (s.setHl w).e = s.e := rfl
@[simp] theorem State.setHl_h (s : State) (w : Word) : (s.setHl w).h = hiByte w := rfl
@[simp] theorem State.setHl_l (s : State) (w : Word) : (s.setHl w).l = loByte w := rfl
@[simp] theorem State.setHl_sp (s : State) (w : Word) : (s.setHl w).sp = s.sp := rfl
@[simp] theorem State.setHl_pc (s : State) (w : Word) : (s.setHl w).pc = s.pc := rfl
@[simp] theorem State.setHl_flags (s : State) (w : Word) : (s.setHl w).flags = s.flags := rfl
@[simp] theorem State.setHl_alt (s : State) (w : Word) : (s.setHl w).alt = s.alt := rfl
@[simp] theorem State.setHl_ix (s : State) (w : Word) : (s.setHl w).ix = s.ix := rfl
@[simp] theorem State.setHl_iy (s : State) (w : Word) : (s.setHl w).iy = s.iy := rfl
@[simp] theorem State.setHl_iReg (s : State) (w : Word) : (s.setHl w).iReg = s.iReg := rfl
@[simp] theorem State.setHl_rReg (s : State) (w : Word) : (s.setHl w).rReg = s.rReg := rfl
@[simp] theorem State.setHl_iff1 (s : State) (w : Word) : (s.setHl w).iff1 = s.iff1 := rfl
@[simp] theorem State.setHl_iff2 (s : State) (w : Word) : (s.setHl w).iff2 = s.iff2 := rfl
@[simp] theorem State.setHl_ticks (s : State) (w : Word) : (s.setHl w).ticks = s.ticks := rfl
@[simp] theorem State.setHl_mem (s : State) (w : Word) : (s.setHl w).mem = s.mem := rfl
@[simp] theorem State.setHl_portAnswers (s : State) (w : Word) : (s.setHl w).portAnswers = s.portAnswers := rfl
@[simp] theorem State.setHl_portReads (s : State) (w : Word) : (s.setHl w).portReads = s.portReads := rfl
@[simp] theorem State.setHl_portLog (s : State) (w : Word) : (s.setHl w).portLog = s.portLog := rfl
@[simp] theorem State.setHl_cfg (s : State) (w : Word) : (s.setHl w).cfg = s.cfg := rfl

/-! ## setAcc -/

@[simp] theorem State.setAcc_a (s : State) (x : Byte × Flags) : (s.setAcc x).a = x.1 := rfl
@[simp] theorem State.setAcc_b (s : State) (x : Byte × Flags) : (s.setAcc x).b = s.b := rfl
@[simp] theorem State.setAcc_c (s : State) (x : Byte × Flags) : (s.setAcc x).c = s.c := rfl
@[simp] theorem State.setAcc_d (s : State) (x : Byte × Flags) : (s.setAcc x).d = s.d := rfl
@[simp] theorem State.setAcc_e (s : State) (x : Byte × Flags) : (s.setAcc x).e = s.e := rfl
@[simp] theorem State.setAcc_h (s : State) (x : Byte × Flags) : (s.setAcc x).h = s.h := rfl
@[simp] theorem State.setAcc_l (s : State) (x : Byte × Flags) : (s.setAcc x).l = s.l := rfl
@[simp] theorem State.setAcc_sp (s : State) (x : Byte × Flags) : (s.setAcc x).sp = s.sp := rfl
@[simp] theorem State.setAcc_pc (s : State) (x : Byte × Flags) : (s.setAcc x).pc = s.pc := rfl
@[simp] theorem State.setAcc_flags (s : State) (x : Byte × Flags) : (s.setAcc x).flags = x.2 := rfl
@[simp] theorem State.setAcc_alt (s : State) (x : Byte × Flags) : (s.setAcc x).alt = s.alt := rfl
@[simp] theorem State.setAcc_ix (s : State) (x : Byte × Flags) : (s.setAcc x).ix = s.ix := rfl
@[simp] theorem State.setAcc_iy (s : State) (x : Byte × Flags) : (s.setAcc x).iy = s.iy := rfl
@[simp] theorem State.setAcc_iReg (s : State) (x : Byte × Flags) : (s.setAcc x).iReg = s.iReg := rfl
@[simp] theorem State.setAcc_rReg (s : State) (x : Byte × Flags) : (s.setAcc x).rReg = s.rReg := rfl
@[simp] theorem State.setAcc_iff1 (s : State) (x : Byte × Flags) : (s.setAcc x).iff1 = s.iff1 := rfl
@[simp] theorem State.setAcc_iff2 (s : State) (x : Byte × Flags) : (s.setAcc x).iff2 = s.iff2 := rfl
@[simp] theorem State.setAcc_ticks (s : State) (x : Byte × Flags) : (s.setAcc x).ticks = s.ticks := rfl
@[simp] theorem State.setAcc_mem (s : State) (x : Byte × Flags) : (s.setAcc x).mem = s.mem := rfl
@[simp] theorem State.setAcc_portAnswers (s : State) (x : Byte × Flags) : (s.setAcc x).portAnswers = s.portAnswers := rfl
@[simp] theorem State.setAcc_portReads (s : State) (x : Byte × Flags) : (s.setAcc x).portReads = s.portReads := rfl
@[simp] theorem State.setAcc_portLog (s : State) (x : Byte × Flags) : (s.setAcc x).portLog = s.portLog := rfl
@[simp] theorem State.setAcc_cfg (s : State) (x : Byte × Flags) : (s.setAcc x).cfg = s.cfg := rfl

/-! ## hostResetTicks -/

@[simp] theorem State.hostResetTicks_a (s : State) : s.hostResetTicks.a = s.a := rfl
@[simp] theorem State.hostResetTicks_b (s : State) : s.hostResetTicks.b = s.b := rfl
@[simp] theorem State.hostResetTicks_c (s : State) : s.hostResetTicks.c = s.c := rfl
@[simp] theorem State.hostResetTicks_d (s : State) : s.hostResetTicks.d = s.d := rfl
@[simp] theorem State.hostResetTicks_e (s : State) : s.hostResetTicks.e = s.e := rfl
@[simp] theorem State.hostResetTicks_h (s : State) : s.hostResetTicks.h = s.h := rfl
@[simp] theorem State.hostResetTicks_l (s : State) : s.hostResetTicks.l = s.l := rfl
@[simp] theorem State.hostResetTicks_sp (s : State) : s.hostResetTicks.sp = s.sp := rfl
@[simp] theorem State.hostResetTicks_pc (s : State) : s.hostResetTicks.pc = s.pc := rfl
@[simp] theorem State.hostResetTicks_flags (s : State) : s.hostResetTicks.flags = s.flags := rfl
@[simp] theorem State.hostResetTicks_alt (s : State) : s.hostResetTicks.alt = s.alt := rfl
@[simp] theorem State.hostResetTicks_ix (s : State) : s.hostResetTicks.ix = s.ix := rfl
@[simp] theorem State.hostResetTicks_iy (s : State) : s.hostResetTicks.iy = s.iy := rfl
@[simp] theorem State.hostResetTicks_iReg (s : State) : s.hostResetTicks.iReg = s.iReg := rfl
@[simp] theorem State.hostResetTicks_rReg (s : State) : s.hostResetTicks.rReg = s.rReg := rfl
@[simp] theorem State.hostResetTicks_iff1 (s : State) : s.hostResetTicks.iff1 = s.iff1 := rfl
@[simp] theorem State.hostResetTicks_iff2 (s : State) : s.hostResetTicks.iff2 = s.iff2 := rfl
@[simp] theorem State.hostResetTicks_ticks (s : State) : s.hostResetTicks.ticks = 0 := rfl
@[simp] theorem State.hostResetTicks_mem (s : State) : s.hostResetTicks.mem = s.mem := rfl
@[simp] theorem State.hostResetTicks_portAnswers (s : State) : s.hostResetTicks.portAnswers = s.portAnswers := rfl
@[simp] theorem State.hostResetTicks_portReads (s : State) : s.hostResetTicks.portReads = s.portReads := rfl
@[simp] theorem State.hostResetTicks_portLog (s : State) : s.hostResetTicks.portLog = s.portLog := rfl
@[simp] theorem State.hostResetTicks_cfg (s : State) : s.hostResetTicks.cfg = s.cfg := rfl

/-! ## hostWriteMem -/

@[simp] theorem State.hostWriteMem_a (s : State) (w : Word) (v : Byte) : (s.hostWriteMem w v).a = s.a := rfl
@[simp] theorem State.hostWriteMem_b (s : State) (w : Word) (v : Byte) : (s.hostWriteMem w v).b = s.b := rfl
@[simp] theorem State.hostWriteMem_c (s : State) (w : Word) (v : Byte) : (s.hostWriteMem w v).c = s.c := rfl
@[simp] theorem State.hostWriteMem_d (s : State) (w : Word) (v : Byte) : (s.hostWriteMem w v).d = s.d := rfl
@[simp] theorem State.hostWriteMem_e (s : State) (w : Word) (v : Byte) : (s.hostWriteMem w v).e = s.e := rfl
@[simp] theorem State.hostWriteMem_h (s : State) (w : Word) (v : Byte) : (s.hostWriteMem w v).h = s.h := rfl
@[simp] theorem State.hostWriteMem_l (s : State) (w : Word) (v : Byte) : (s.hostWriteMem w v).l = s.l := rfl
@[simp] theorem State.hostWriteMem_sp (s : State) (w : Word) (v : Byte) : (s.hostWriteMem w v).sp = s.sp := rfl
@[simp] theorem State.hostWriteMem_pc (s : State) (w : Word) (v : Byte) : (s.hostWriteMem w v).pc = s.pc := rfl
@[simp] theorem State.hostWriteMem_flags (s : State) (w : Word) (v : Byte) : (s.hostWriteMem w v).flags = s.flags := rfl
@[simp] theorem State.hostWriteMem_alt (s : State) (w : Word) (v : Byte) : (s.hostWriteMem w v).alt = s.alt := rfl
@[simp] theorem State.hostWriteMem_ix (s : State) (w : Word) (v : Byte) : (s.hostWriteMem w v).ix = s.ix := rfl
@[simp] theorem State.hostWriteMem_iy (s : State) (w : Word) (v : Byte) : (s.hostWriteMem w v).iy = s.iy := rfl
@[simp] theorem State.hostWriteMem_iReg (s : State) (w : Word) (v : Byte) : (s.hostWriteMem w v).iReg = s.iReg := rfl
@[simp] theorem State.hostWriteMem_rReg (s : State) (w : Word) (v : Byte) : (s.hostWriteMem w v).rReg = s.rReg := rfl
@[simp] theorem State.hostWriteMem_iff1 (s : State) (w : Word) (v : Byte) : (s.hostWriteMem w v).iff1 = s.iff1 := rfl
@[simp] theorem State.hostWriteMem_iff2 (s : State) (w : Word) (v : Byte) : (s.hostWriteMem w v).iff2 = s.iff2 := rfl
@[simp] theorem State.hostWriteMem_ticks (s : State) (w : Word) (v : Byte) : (s.hostWriteMem w v).ticks = s.ticks := rfl
@[simp] theorem State.hostWriteMem_mem (s : State) (w : Word) (v : Byte) : (s.hostWriteMem w v).mem = Memory.write s.mem w v := rfl
@[simp] theorem State.hostWriteMem_portAnswers (s : State) (w : Word) (v : Byte) : (s.hostWriteMem w v).portAnswers = s.portAnswers := rfl
@[simp] theorem State.hostWriteMem_portReads (s : State) (w : Word) (v : Byte) : (s.hostWriteMem w v).portReads = s.portReads := rfl
@[simp] theorem State.hostWriteMem_portLog (s : State) (w : Word) (v : Byte) : (s.hostWriteMem w v).portLog = s.portLog := rfl
@[simp] theorem State.hostWriteMem_cfg (s : State) (w : Word) (v : Byte) : (s.hostWriteMem w v).cfg = s.cfg := rfl

/-! ## hostAnswerPort -/

@[simp] theorem State.hostAnswerPort_a (s : State) (v : Byte) : (s.hostAnswerPort v).a = s.a := rfl
@[simp] theorem State.hostAnswerPort_b (s : State) (v : Byte) : (s.hostAnswerPort v).b = s.b := rfl
@[simp] theorem State.hostAnswerPort_c (s : State) (v : Byte) : (s.hostAnswerPort v).c = s.c := rfl
@[simp] theorem State.hostAnswerPort_d (s : State) (v : Byte) : (s.hostAnswerPort v).d = s.d := rfl
@[simp] theorem State.hostAnswerPort_e (s : State) (v : Byte) : (s.hostAnswerPort v).e = s.e := rfl
@[simp] theorem State.hostAnswerPort_h (s : State) (v : Byte) : (s.hostAnswerPort v).h = s.h := rfl
@[simp] theorem State.hostAnswerPort_l (s : State) (v : Byte) : (s.hostAnswerPort v).l = s.l := rfl
@[simp] theorem State.hostAnswerPort_sp (s : State) (v : Byte) : (s.hostAnswerPort v).sp = s.sp := rfl
@[simp] theorem State.hostAnswerPort_pc (s : State) (v : Byte) : (s.hostAnswerPort v).pc = s.pc := rfl
@[simp] theorem State.hostAnswerPort_flags (s : State) (v : Byte) : (s.hostAnswerPort v).flags = s.flags := rfl
@[simp] theorem State.hostAnswerPort_alt (s : State) (v : Byte) : (s.hostAnswerPort v).alt = s.alt := rfl
@[simp] theorem State.hostAnswerPort_ix (s : State) (v : Byte) : (s.hostAnswerPort v).ix = s.ix := rfl
@[simp] theorem State.hostAnswerPort_iy (s : State) (v : Byte) : (s.hostAnswerPort v).iy = s.iy := rfl
@[simp] theorem State.hostAnswerPort_iReg (s : State) (v : Byte) : (s.hostAnswerPort v).iReg = s.iReg := rfl
@[simp] theorem State.hostAnswerPort_rReg (s : State) (v : Byte) : (s.hostAnswerPort v).rReg = s.rReg := rfl
@[simp] theorem State.hostAnswerPort_iff1 (s : State) (v : Byte) : (s.hostAnswerPort v).iff1 = s.iff1 := rfl
@[simp] theorem State.hostAnswerPort_iff2 (s : State) (v : Byte) : (s.hostAnswerPort v).iff2 = s.iff2 := rfl
@[simp] theorem State.hostAnswerPort_ticks (s : State) (v : Byte) : (s.hostAnswerPort v).ticks = s.ticks := rfl
@[simp] theorem State.hostAnswerPort_mem (s : State) (v : Byte) : (s.hostAnswerPort v).mem = s.mem := rfl
@[simp] theorem State.hostAnswerPort_portAnswers (s : State) (v : Byte) : (s.hostAnswerPort v).portAnswers = s.portAnswers ++ [v] := rfl
@[simp] theorem State.hostAnswerPort_portReads (s : State) (v : Byte) : (s.hostAnswerPort v).portReads = s.portReads := rfl
@[simp] theorem State.hostAnswerPort_portLog (s : State) (v : Byte) : (s.hostAnswerPort v).portLog = s.portLog := rfl
@[simp] theorem State.hostAnswerPort_cfg (s : State) (v : Byte) : (s.hostAnswerPort v).cfg = s.cfg := rfl

/-! ## setReg, the fields that are no register slot -/

@[simp] theorem State.setReg_sp (s : State) (r : Reg) (v : Byte) : (s.setReg r v).sp = s.sp := by cases r <;> rfl
@[simp] theorem State.setReg_pc (s : State) (r : Reg) (v : Byte) : (s.setReg r v).pc = s.pc := by cases r <;> rfl
@[simp] theorem State.setReg_flags (s : State) (r : Reg) (v : Byte) : (s.setReg r v).flags = s.flags := by cases r <;> rfl
@[simp] theorem State.setReg_alt (s : State) (r : Reg) (v : Byte) : (s.setReg r v).alt = s.alt := by cases r <;> rfl
@[simp] theorem State.setReg_ix (s : State) (r : Reg) (v : Byte) : (s.setReg r v).ix = s.ix := by cases r <;> rfl
@[simp] theorem State.setReg_iy (s : State) (r : Reg) (v : Byte) : (s.setReg r v).iy = s.iy := by cases r <;> rfl
@[simp] theorem State.setReg_iReg (s : State) (r : Reg) (v : Byte) : (s.setReg r v).iReg = s.iReg := by cases r <;> rfl
@[simp] theorem State.setReg_rReg (s : State) (r : Reg) (v : Byte) : (s.setReg r v).rReg = s.rReg := by cases r <;> rfl
@[simp] theorem State.setReg_iff1 (s : State) (r : Reg) (v : Byte) : (s.setReg r v).iff1 = s.iff1 := by cases r <;> rfl
@[simp] theorem State.setReg_iff2 (s : State) (r : Reg) (v : Byte) : (s.setReg r v).iff2 = s.iff2 := by cases r <;> rfl
@[simp] theorem State.setReg_ticks (s : State) (r : Reg) (v : Byte) : (s.setReg r v).ticks = s.ticks := by cases r <;> rfl
@[simp] theorem State.setReg_mem (s : State) (r : Reg) (v : Byte) : (s.setReg r v).mem = s.mem := by cases r <;> rfl
@[simp] theorem State.setReg_portAnswers (s : State) (r : Reg) (v : Byte) : (s.setReg r v).portAnswers = s.portAnswers := by cases r <;> rfl
@[simp] theorem State.setReg_portReads (s : State) (r : Reg) (v : Byte) : (s.setReg r v).portReads = s.portReads := by cases r <;> rfl
@[simp] theorem State.setReg_portLog (s : State) (r : Reg) (v : Byte) : (s.setReg r v).portLog = s.portLog := by cases r <;> rfl
@[simp] theorem State.setReg_cfg (s : State) (r : Reg) (v : Byte) : (s.setReg r v).cfg = s.cfg := by cases r <;> rfl

/-! ## setPair, the fields that are in no pair -/

@[simp] theorem State.setPair_pc (s : State) (p : RegPair) (w : Word) : (s.setPair p w).pc = s.pc := by cases p <;> rfl
@[simp] theorem State.setPair_flags (s : State) (p : RegPair) (w : Word) : (s.setPair p w).flags = s.flags := by cases p <;> rfl
@[simp] theorem State.setPair_alt (s : State) (p : RegPair) (w : Word) : (s.setPair p w).alt = s.alt := by cases p <;> rfl
@[simp] theorem State.setPair_ix (s : State) (p : RegPair) (w : Word) : (s.setPair p w).ix = s.ix := by cases p <;> rfl
@[simp] theorem State.setPair_iy (s : State) (p : RegPair) (w : Word) : (s.setPair p w).iy = s.iy := by cases p <;> rfl
@[simp] theorem State.setPair_iReg (s : State) (p : RegPair) (w : Word) : (s.setPair p w).iReg = s.iReg := by cases p <;> rfl
@[simp] theorem State.setPair_rReg (s : State) (p : RegPair) (w : Word) : (s.setPair p w).rReg = s.rReg := by cases p <;> rfl
@[simp] theorem State.setPair_iff1 (s : State) (p : RegPair) (w : Word) : (s.setPair p w).iff1 = s.iff1 := by cases p <;> rfl
@[simp] theorem State.setPair_iff2 (s : State) (p : RegPair) (w : Word) : (s.setPair p w).iff2 = s.iff2 := by cases p <;> rfl
@[simp] theorem State.setPair_ticks (s : State) (p : RegPair) (w : Word) : (s.setPair p w).ticks = s.ticks := by cases p <;> rfl
@[simp] theorem State.setPair_mem (s : State) (p : RegPair) (w : Word) : (s.setPair p w).mem = s.mem := by cases p <;> rfl
@[simp] theorem State.setPair_portAnswers (s : State) (p : RegPair) (w : Word) : (s.setPair p w).portAnswers = s.portAnswers := by cases p <;> rfl
@[simp] theorem State.setPair_portReads (s : State) (p : RegPair) (w : Word) : (s.setPair p w).portReads = s.portReads := by cases p <;> rfl
@[simp] theorem State.setPair_portLog (s : State) (p : RegPair) (w : Word) : (s.setPair p w).portLog = s.portLog := by cases p <;> rfl
@[simp] theorem State.setPair_cfg (s : State) (p : RegPair) (w : Word) : (s.setPair p w).cfg = s.cfg := by cases p <;> rfl

@[simp] theorem State.setPair_a (s : State) (p : RegPair) (w : Word) : (s.setPair p w).a = s.a := by cases p <;> rfl

/-! ## setStackPair, the fields that are in no pair -/

@[simp] theorem State.setStackPair_a (s : State) (p : StackPair) (w : Word) : (s.setStackPair p w).a = s.a := by cases p <;> rfl
@[simp] theorem State.setStackPair_sp (s : State) (p : StackPair) (w : Word) : (s.setStackPair p w).sp = s.sp := by cases p <;> rfl
@[simp] theorem State.setStackPair_pc (s : State) (p : StackPair) (w : Word) : (s.setStackPair p w).pc = s.pc := by cases p <;> rfl
@[simp] theorem State.setStackPair_flags (s : State) (p : StackPair) (w : Word) : (s.setStackPair p w).flags = s.flags := by cases p <;> rfl
@[simp] theorem State.setStackPair_alt (s : State) (p : StackPair) (w : Word) : (s.setStackPair p w).alt = s.alt := by cases p <;> rfl
@[simp] theorem State.setStackPair_ix (s : State) (p : StackPair) (w : Word) : (s.setStackPair p w).ix = s.ix := by cases p <;> rfl
@[simp] theorem State.setStackPair_iy (s : State) (p : StackPair) (w : Word) : (s.setStackPair p w).iy = s.iy := by cases p <;> rfl
@[simp] theorem State.setStackPair_iReg (s : State) (p : StackPair) (w : Word) : (s.setStackPair p w).iReg = s.iReg := by cases p <;> rfl
@[simp] theorem State.setStackPair_rReg (s : State) (p : StackPair) (w : Word) : (s.setStackPair p w).rReg = s.rReg := by cases p <;> rfl
@[simp] theorem State.setStackPair_iff1 (s : State) (p : StackPair) (w : Word) : (s.setStackPair p w).iff1 = s.iff1 := by cases p <;> rfl
@[simp] theorem State.setStackPair_iff2 (s : State) (p : StackPair) (w : Word) : (s.setStackPair p w).iff2 = s.iff2 := by cases p <;> rfl
@[simp] theorem State.setStackPair_ticks (s : State) (p : StackPair) (w : Word) : (s.setStackPair p w).ticks = s.ticks := by cases p <;> rfl
@[simp] theorem State.setStackPair_mem (s : State) (p : StackPair) (w : Word) : (s.setStackPair p w).mem = s.mem := by cases p <;> rfl
@[simp] theorem State.setStackPair_portAnswers (s : State) (p : StackPair) (w : Word) : (s.setStackPair p w).portAnswers = s.portAnswers := by cases p <;> rfl
@[simp] theorem State.setStackPair_portReads (s : State) (p : StackPair) (w : Word) : (s.setStackPair p w).portReads = s.portReads := by cases p <;> rfl
@[simp] theorem State.setStackPair_portLog (s : State) (p : StackPair) (w : Word) : (s.setStackPair p w).portLog = s.portLog := by cases p <;> rfl
@[simp] theorem State.setStackPair_cfg (s : State) (p : StackPair) (w : Word) : (s.setStackPair p w).cfg = s.cfg := by cases p <;> rfl

/-! ## portReadDone, the fields that are no port input -/

@[simp] theorem State.portReadDone_a (s : State) : s.portReadDone.a = s.a := by unfold State.portReadDone; split <;> rfl
@[simp] theorem State.portReadDone_b (s : State) : s.portReadDone.b = s.b := by unfold State.portReadDone; split <;> rfl
@[simp] theorem State.portReadDone_c (s : State) : s.portReadDone.c = s.c := by unfold State.portReadDone; split <;> rfl
@[simp] theorem State.portReadDone_d (s : State) : s.portReadDone.d = s.d := by unfold State.portReadDone; split <;> rfl
@[simp] theorem State.portReadDone_e (s : State) : s.portReadDone.e = s.e := by unfold State.portReadDone; split <;> rfl
@[simp] theorem State.portReadDone_h (s : State) : s.portReadDone.h = s.h := by unfold State.portReadDone; split <;> rfl
@[simp] theorem State.portReadDone_l (s : State) : s.portReadDone.l = s.l := by unfold State.portReadDone; split <;> rfl
@[simp] theorem State.portReadDone_sp (s : State) : s.portReadDone.sp = s.sp := by unfold State.portReadDone; split <;> rfl
@[simp] theorem State.portReadDone_pc (s : State) : s.portReadDone.pc = s.pc := by unfold State.portReadDone; split <;> rfl
@[simp] theorem State.portReadDone_flags (s : State) : s.portReadDone.flags = s.flags := by unfold State.portReadDone; split <;> rfl
@[simp] theorem State.portReadDone_alt (s : State) : s.portReadDone.alt = s.alt := by unfold State.portReadDone; split <;> rfl
@[simp] theorem State.portReadDone_ix (s : State) : s.portReadDone.ix = s.ix := by unfold State.portReadDone; split <;> rfl
@[simp] theorem State.portReadDone_iy (s : State) : s.portReadDone.iy = s.iy := by unfold State.portReadDone; split <;> rfl
@[simp] theorem State.portReadDone_iReg (s : State) : s.portReadDone.iReg = s.iReg := by unfold State.portReadDone; split <;> rfl
@[simp] theorem State.portReadDone_rReg (s : State) : s.portReadDone.rReg = s.rReg := by unfold State.portReadDone; split <;> rfl
@[simp] theorem State.portReadDone_iff1 (s : State) : s.portReadDone.iff1 = s.iff1 := by unfold State.portReadDone; split <;> rfl
@[simp] theorem State.portReadDone_iff2 (s : State) : s.portReadDone.iff2 = s.iff2 := by unfold State.portReadDone; split <;> rfl
@[simp] theorem State.portReadDone_ticks (s : State) : s.portReadDone.ticks = s.ticks := by unfold State.portReadDone; split <;> rfl
@[simp] theorem State.portReadDone_mem (s : State) : s.portReadDone.mem = s.mem := by unfold State.portReadDone; split <;> rfl
@[simp] theorem State.portReadDone_portLog (s : State) : s.portReadDone.portLog = s.portLog := by unfold State.portReadDone; split <;> rfl
@[simp] theorem State.portReadDone_cfg (s : State) : s.portReadDone.cfg = s.cfg := by unfold State.portReadDone; split <;> rfl

/-! ## Registers and pairs -/

/-- A register slot reads what was last written to it (R53). -/
@[simp] theorem State.reg_setReg_same (s : State) (r : Reg) (v : Byte) : (s.setReg r v).reg r = v := by
  cases r <;> rfl

/-- Writing one register slot leaves the others alone (R53). -/
theorem State.reg_setReg_other (s : State) (r q : Reg) (v : Byte) (h : q ≠ r) : (s.setReg r v).reg q = s.reg q := by
  cases r <;> cases q <;> first | rfl | exact absurd rfl h

@[simp] theorem State.memWrite_reg (s : State) (w : Word) (v : Byte) (r : Reg) : (s.memWrite w v).reg r = s.reg r := by cases r <;> rfl
@[simp] theorem State.memWrite_hl (s : State) (w : Word) (v : Byte) : (s.memWrite w v).hl = s.hl := rfl
@[simp] theorem State.memWrite16_reg (s : State) (w v : Word) (r : Reg) : (s.memWrite16 w v).reg r = s.reg r := by cases r <;> rfl
@[simp] theorem State.memWrite16_hl (s : State) (w v : Word) : (s.memWrite16 w v).hl = s.hl := rfl
@[simp] theorem State.push16_reg (s : State) (v : Word) (r : Reg) : (s.push16 v).reg r = s.reg r := by cases r <;> rfl
@[simp] theorem State.push16_hl (s : State) (v : Word) : (s.push16 v).hl = s.hl := rfl
@[simp] theorem State.popped_reg (s : State) (r : Reg) : s.popped.reg r = s.reg r := by cases r <;> rfl
@[simp] theorem State.popped_hl (s : State) : s.popped.hl = s.hl := rfl
@[simp] theorem State.portWrite_reg (s : State) (p : Word) (v : Byte) (r : Reg) : (s.portWrite p v).reg r = s.reg r := by cases r <;> rfl
@[simp] theorem State.portWrite_hl (s : State) (p : Word) (v : Byte) : (s.portWrite p v).hl = s.hl := rfl
@[simp] theorem State.advance_reg (s : State) (i : Instr) (len : Word) (r : Reg) : (s.advance i len).reg r = s.reg r := by cases r <;> rfl
@[simp] theorem State.fallThrough_reg (s : State) (i : Instr) (len : Word) (r : Reg) : (s.fallThrough i len).reg r = s.reg r := by cases r <;> rfl
@[simp] theorem State.advance_hl (s : State) (i : Instr) (len : Word) : (s.advance i len).hl = s.hl := rfl
@[simp] theorem State.fallThrough_hl (s : State) (i : Instr) (len : Word) : (s.fallThrough i len).hl = s.hl := rfl
@[simp] theorem State.jumpTo_reg (s : State) (i : Instr) (target : Word) (r : Reg) : (s.jumpTo i target).reg r = s.reg r := by cases r <;> rfl
@[simp] theorem State.jumpTo_hl (s : State) (i : Instr) (target : Word) : (s.jumpTo i target).hl = s.hl := rfl
@[simp] theorem State.popped_memRead (s : State) (w : Word) : s.popped.memRead w = s.memRead w := rfl
@[simp] theorem State.portWrite_memRead (s : State) (p : Word) (v : Byte) (w : Word) : (s.portWrite p v).memRead w = s.memRead w := rfl
@[simp] theorem State.advance_memRead (s : State) (i : Instr) (len : Word) (w : Word) : (s.advance i len).memRead w = s.memRead w := rfl
@[simp] theorem State.fallThrough_memRead (s : State) (i : Instr) (len : Word) (w : Word) : (s.fallThrough i len).memRead w = s.memRead w := rfl
@[simp] theorem State.jumpTo_memRead (s : State) (i : Instr) (target : Word) (w : Word) : (s.jumpTo i target).memRead w = s.memRead w := rfl
@[simp] theorem State.setAcc_memRead (s : State) (x : Byte × Flags) (w : Word) : (s.setAcc x).memRead w = s.memRead w := rfl
@[simp] theorem State.setBc_memRead (s : State) (x : Word) (w : Word) : (s.setBc x).memRead w = s.memRead w := rfl
@[simp] theorem State.setDe_memRead (s : State) (x : Word) (w : Word) : (s.setDe x).memRead w = s.memRead w := rfl
@[simp] theorem State.setHl_memRead (s : State) (x : Word) (w : Word) : (s.setHl x).memRead w = s.memRead w := rfl
@[simp] theorem State.setReg_memRead (s : State) (r : Reg) (v : Byte) (w : Word) :
    (s.setReg r v).memRead w = s.memRead w := by cases r <;> rfl
@[simp] theorem State.setPair_memRead (s : State) (p : RegPair) (x w : Word) :
    (s.setPair p x).memRead w = s.memRead w := by cases p <;> rfl
@[simp] theorem State.setStackPair_memRead (s : State) (p : StackPair) (x w : Word) :
    (s.setStackPair p x).memRead w = s.memRead w := by cases p <;> rfl
@[simp] theorem State.portReadDone_memRead (s : State) (w : Word) : s.portReadDone.memRead w = s.memRead w := by
  unfold State.portReadDone; split <;> rfl

/-- A read after `memWrite` reads the memory the bus leaves. -/
theorem State.memRead_memWrite (s : State) (a w : Word) (v : Byte) :
    (s.memWrite a v).memRead w = Memory.read (busWrite s.cfg s.mem a v) w := rfl

end Sys2Proof.Machine
end

