-- ==== Sys2Proof/Laws/Frames.lean ====
section
/-! SUPPORT. What each shared operation leaves unchanged, once per operation, as `ChangesOnly`; a meaning is a chain of
them, so its frame is a chain of `ChangesOnly.trans`. -/

namespace Sys2Proof.Machine

/-! ## The relation -/

theorem Part.same_rfl (s : State) (p : Part) : Part.same s s p := by
  cases p <;> first
    | rfl
    | exact fun _ => rfl
    | exact ⟨rfl, rfl⟩

theorem Part.same_trans {s t u : State} {p : Part} (h : Part.same s t p) (k : Part.same t u p) : Part.same s u p := by
  cases p <;> first
    | exact Eq.trans k h
    | exact fun w => Eq.trans (k w) (h w)
    | exact ⟨Eq.trans k.1 h.1, Eq.trans k.2 h.2⟩

theorem ChangesOnly.refl (s : State) : ChangesOnly [] s s := fun p _ => Part.same_rfl s p

/-- What two updates in a row may change. -/
theorem ChangesOnly.trans {ps qs : List Part} {s t u : State} (h : ChangesOnly ps s t) (k : ChangesOnly qs t u) :
    ChangesOnly (ps ++ qs) s u := fun p hp =>
  Part.same_trans (h p fun m => hp (List.mem_append_left _ m)) (k p fun m => hp (List.mem_append_right _ m))

/-- A frame may list more than it needs. -/
theorem ChangesOnly.mono {ps qs : List Part} {s t : State} (h : ChangesOnly ps s t) (hs : ps ⊆ qs) :
    ChangesOnly qs s t := fun p hp => h p fun m => hp (hs m)

/-- A state that differs in PC and ticks alone. -/
theorem ChangesOnly.of_pc_ticks {s t : State} (h : t = { s with pc := t.pc, ticks := t.ticks }) :
    ChangesOnly [] s t := by
  rw [h]
  intro p _
  cases p <;> first
    | rfl
    | exact fun _ => rfl
    | exact ⟨rfl, rfl⟩

/-! ## The operations -/

theorem changesOnly_advance (s : State) (i : Instr) (len : Word) : ChangesOnly [] s (s.advance i len) :=
  .of_pc_ticks rfl

theorem changesOnly_fallThrough (s : State) (i : Instr) (len : Word) : ChangesOnly [] s (s.fallThrough i len) :=
  .of_pc_ticks rfl

theorem changesOnly_jumpTo (s : State) (i : Instr) (target : Word) : ChangesOnly [] s (s.jumpTo i target) :=
  .of_pc_ticks rfl

theorem changesOnly_memWrite (s : State) (a : Word) (v : Byte) : ChangesOnly [.mem] s (s.memWrite a v) := by
  intro p hp
  cases p <;> first
    | exact absurd (List.mem_singleton.2 rfl) hp
    | rfl
    | exact ⟨rfl, rfl⟩

theorem changesOnly_memWrite16 (s : State) (a v : Word) : ChangesOnly [.mem] s (s.memWrite16 a v) :=
  ((changesOnly_memWrite s a _).trans (changesOnly_memWrite _ (a + 1) _)).mono (by simp)

theorem changesOnly_setMemHl (s : State) (v : Byte) : ChangesOnly [.mem] s (s.setMemHl v) :=
  changesOnly_memWrite s _ v

/-- Writing SP changes SP. -/
theorem changesOnly_sp (s : State) (w : Word) : ChangesOnly [.sp] s { s with sp := w } := by
  intro p hp
  cases p <;> first
    | exact absurd (List.mem_singleton.2 rfl) hp
    | rfl
    | exact fun _ => rfl
    | exact ⟨rfl, rfl⟩

theorem changesOnly_push16 (s : State) (v : Word) : ChangesOnly [.sp, .mem] s (s.push16 v) :=
  ((((changesOnly_sp s _).trans (changesOnly_memWrite _ _ _)).trans (changesOnly_sp _ _)).trans
    (changesOnly_memWrite _ _ _)).mono (by simp)

theorem changesOnly_popped (s : State) : ChangesOnly [.sp] s s.popped := changesOnly_sp s _

theorem changesOnly_portWrite (s : State) (p : Word) (v : Byte) : ChangesOnly [.portLog] s (s.portWrite p v) := by
  intro q hq
  cases q <;> first
    | exact absurd (List.mem_singleton.2 rfl) hq
    | rfl
    | exact fun _ => rfl
    | exact ⟨rfl, rfl⟩

theorem changesOnly_portReadDone (s : State) : ChangesOnly [.portInput] s s.portReadDone := by
  unfold State.portReadDone
  split <;>
  · intro q hq
    cases q <;> first
      | exact absurd (List.mem_singleton.2 rfl) hq
      | rfl
      | exact fun _ => rfl

theorem changesOnly_setReg (s : State) (r : Reg) (v : Byte) : ChangesOnly [.reg r] s (s.setReg r v) := by
  intro p hp
  cases p with
  | reg q => exact State.reg_setReg_other s r q v fun e => hp (List.mem_singleton.2 (e ▸ rfl))
  | altReg q => simp [Part.same]
  | portInput => simp [Part.same]
  | mem => simp [Part.same]
  | _ => simp [Part.same]

theorem changesOnly_setPair (s : State) (p : RegPair) (w : Word) : ChangesOnly (pairParts p) s (s.setPair p w) := by
  cases p with
  | sp => exact changesOnly_sp s w
  | bc => exact (changesOnly_setReg s .b (hiByte w)).trans (changesOnly_setReg _ .c (loByte w))
  | de => exact (changesOnly_setReg s .d (hiByte w)).trans (changesOnly_setReg _ .e (loByte w))
  | hl => exact (changesOnly_setReg s .h (hiByte w)).trans (changesOnly_setReg _ .l (loByte w))

theorem changesOnly_setStackPair (s : State) (p : StackPair) (w : Word) :
    ChangesOnly (stackPairParts p) s (s.setStackPair p w) := by
  cases p with
  | bc => exact changesOnly_setPair s .bc w
  | de => exact changesOnly_setPair s .de w
  | hl => exact changesOnly_setPair s .hl w

/-- Writing the flags changes the flags in which the two values differ. -/
theorem changesOnly_flags (s : State) (f : Flags) (ps : List Part)
    (h : ∀ k, Part.flag k ∉ ps → f.get k = s.flags.get k) : ChangesOnly ps s { s with flags := f } := by
  intro p hp
  cases p with
  | flag k => exact h k hp
  | reg r => cases r <;> rfl
  | altReg r => cases r <;> rfl
  | mem => exact fun _ => rfl
  | portInput => exact ⟨rfl, rfl⟩
  | _ => rfl

theorem changesOnly_setAcc (s : State) (x : Byte × Flags) (ps : List Part)
    (h : ∀ k, Part.flag k ∉ ps → x.2.get k = s.flags.get k) : ChangesOnly (.reg .a :: ps) s (s.setAcc x) :=
  (changesOnly_setReg s .a x.1).trans (changesOnly_flags _ x.2 ps h)

/-! ## The flags each function of the ALU writes (R96) -/

/-- The five flags of BASE and the three of EXT: what the 8-bit functions write. -/
abbrev aluParts (m : Mode) : List Part := flagParts m [.fS, .fZ, .fH, .fP, .fC] [.f5, .f3, .fN]

/-- All but fC: what INR and DCR write. -/
abbrev countParts (m : Mode) : List Part := flagParts m [.fS, .fZ, .fH, .fP] [.f5, .f3, .fN]

/-- fC, and in EXT fH, f5, f3 and fN: what the rotates, DAD, STC and CMC write. -/
abbrev carryParts (m : Mode) : List Part := flagParts m [.fC] [.fH, .f5, .f3, .fN]

/-- A function that keeps the flags outside `bs` under the rules of BASE, and those outside `bs` and `es` under every set
of EXT rules, keeps under the rules of the configured mode what R96 says that mode keeps. -/
theorem keeps_of_rules {F : FlagRules → Flags} {f : Flags} {bs es : List FlagName}
    (hb : ∀ k, k ∉ bs → (F .base).get k = f.get k) (he : ∀ x k, k ∉ bs → k ∉ es → (F (.ext x)).get k = f.get k)
    (p : Params) (k : FlagName) (h : Part.flag k ∉ flagParts p.mode bs es) : (F p.flagRules).get k = f.get k := by
  unfold Params.flagRules
  cases hm : p.mode with
  | base =>
    rw [hm] at h
    exact hb k fun hk => h (List.mem_map_of_mem hk)
  | ext =>
    rw [hm] at h
    exact he _ k (fun hk => h (List.mem_map_of_mem (List.mem_append_left _ hk)))
      fun hk => h (List.mem_map_of_mem (List.mem_append_right _ hk))

theorem add8_keeps (p : Params) (f : Flags) (a b : Byte) (cin : Bool) (k : FlagName)
    (h : Part.flag k ∉ aluParts p.mode) :
    (add8 p.flagRules f a b cin).2.get k = f.get k :=
  keeps_of_rules (F := fun m => (add8 m f a b cin).2)
    (fun k hk => by cases k <;> first | rfl | exact absurd (by decide) hk)
    (fun x k hk he => by cases k <;> first | rfl | exact absurd (by decide) hk | exact absurd (by decide) he) p k h

theorem sub8_keeps (p : Params) (f : Flags) (a b : Byte) (bin : Bool) (k : FlagName)
    (h : Part.flag k ∉ aluParts p.mode) :
    (sub8 p.flagRules f a b bin).2.get k = f.get k :=
  keeps_of_rules (F := fun m => (sub8 m f a b bin).2)
    (fun k hk => by cases k <;> first | rfl | exact absurd (by decide) hk)
    (fun x k hk he => by cases k <;> first | rfl | exact absurd (by decide) hk | exact absurd (by decide) he) p k h

theorem cmp8_keeps (p : Params) (f : Flags) (a b : Byte) (k : FlagName) (h : Part.flag k ∉ aluParts p.mode) :
    (cmp8 p.flagRules f a b).get k = f.get k :=
  keeps_of_rules (F := fun m => (cmp8 m f a b))
    (fun k hk => by cases k <;> first | rfl | exact absurd (by decide) hk)
    (fun x k hk he => by cases k <;> first | rfl | exact absurd (by decide) hk | exact absurd (by decide) he) p k h

theorem logicFlags_keeps (p : Params) (f : Flags) (op : AluOp) (r : Byte) (hBase hExt : Bool) (k : FlagName)
    (h : Part.flag k ∉ aluParts p.mode) :
    (logicFlags p.flagRules f op r hBase hExt).get k = f.get k :=
  keeps_of_rules (F := fun m => (logicFlags m f op r hBase hExt))
    (fun k hk => by cases k <;> first | rfl | exact absurd (by decide) hk)
    (fun x k hk he => by cases k <;> first | rfl | exact absurd (by decide) hk | exact absurd (by decide) he) p k h

theorem inc8_keeps (p : Params) (f : Flags) (x : Byte) (k : FlagName) (h : Part.flag k ∉ countParts p.mode) :
    (inc8 p.flagRules f x).2.get k = f.get k :=
  keeps_of_rules (F := fun m => (inc8 m f x).2)
    (fun k hk => by cases k <;> first | rfl | exact absurd (by decide) hk)
    (fun x k hk he => by cases k <;> first | rfl | exact absurd (by decide) hk | exact absurd (by decide) he) p k h

theorem dec8_keeps (p : Params) (f : Flags) (x : Byte) (k : FlagName) (h : Part.flag k ∉ countParts p.mode) :
    (dec8 p.flagRules f x).2.get k = f.get k :=
  keeps_of_rules (F := fun m => (dec8 m f x).2)
    (fun k hk => by cases k <;> first | rfl | exact absurd (by decide) hk)
    (fun x k hk he => by cases k <;> first | rfl | exact absurd (by decide) hk | exact absurd (by decide) he) p k h

theorem rotateFlags_keeps (p : Params) (f : Flags) (op : AluOp) (r : Byte) (c : Bool) (k : FlagName)
    (h : Part.flag k ∉ carryParts p.mode) :
    (rotateFlags p.flagRules f op r c).get k = f.get k :=
  keeps_of_rules (F := fun m => (rotateFlags m f op r c))
    (fun k hk => by cases k <;> first | rfl | exact absurd (by decide) hk)
    (fun x k hk he => by cases k <;> first | rfl | exact absurd (by decide) hk | exact absurd (by decide) he) p k h

theorem cmcFlags_keeps (p : Params) (f : Flags) (a : Byte) (k : FlagName) (h : Part.flag k ∉ carryParts p.mode) :
    (cmcFlags p.flagRules f a).get k = f.get k :=
  keeps_of_rules (F := fun m => (cmcFlags m f a))
    (fun k hk => by cases k <;> first | rfl | exact absurd (by decide) hk)
    (fun x k hk he => by cases k <;> first | rfl | exact absurd (by decide) hk | exact absurd (by decide) he) p k h

theorem stcFlags_keeps (p : Params) (f : Flags) (a : Byte) (k : FlagName) (h : Part.flag k ∉ carryParts p.mode) :
    (stcFlags p.flagRules f a).get k = f.get k :=
  keeps_of_rules (F := fun m => (stcFlags m f a))
    (fun k hk => by cases k <;> first | rfl | exact absurd (by decide) hk)
    (fun x k hk he => by cases k <;> first | rfl | exact absurd (by decide) hk | exact absurd (by decide) he) p k h

theorem add16_keeps (p : Params) (f : Flags) (hl x : Word) (k : FlagName) (h : Part.flag k ∉ carryParts p.mode) :
    (add16 p.flagRules f hl x).2.get k = f.get k :=
  keeps_of_rules (F := fun m => (add16 m f hl x).2)
    (fun k hk => by cases k <;> first | rfl | exact absurd (by decide) hk)
    (fun x k hk he => by cases k <;> first | rfl | exact absurd (by decide) hk | exact absurd (by decide) he) p k h

theorem unpackFlags_keeps (m : Mode) (f : Flags) (v : Byte) (k : FlagName) (h : Part.flag k ∉ aluParts m) :
    (unpackFlags m f v).get k = f.get k := by
  cases m <;> cases k <;> first
    | rfl
    | simp [flagParts] at h

/-- CMA writes no flag in BASE (R149). -/
theorem cmaFlags_keeps (p : Params) (f : Flags) (a : Byte) (k : FlagName)
    (h : Part.flag k ∉ flagParts p.mode [] [.fH, .f5, .f3, .fN]) : (cmaFlags p.flagRules f a).get k = f.get k :=
  keeps_of_rules (F := fun m => cmaFlags m f a)
    (fun _ _ => rfl)
    (fun x k _ he => by cases k <;> first | rfl | exact absurd (by decide) he) p k h

/-- DAA keeps fN, in EXT too (R91). -/
theorem daa8_keeps (p : Params) (f : Flags) (a : Byte) (k : FlagName)
    (h : Part.flag k ∉ flagParts p.mode [.fS, .fZ, .fH, .fP, .fC] [.f5, .f3]) :
    (daa8 p.flagRules f a).2.get k = f.get k := by
  have key : ∀ (g : Flags) (c : Bool) (k : FlagName), k ≠ .fC →
      (if c = true then { g with fC := true } else g).get k = g.get k := by
    intro g c k hk
    cases c <;> cases k <;> first
      | rfl
      | exact absurd rfl hk
  exact keeps_of_rules (F := fun m => (daa8 m f a).2)
    (fun k hk => by cases k <;> first | exact key _ _ _ (by decide) | exact absurd (by decide) hk)
    (fun x k hk he => by cases k <;> first | rfl | exact absurd (by decide) hk | exact absurd (by decide) he) p k h

end Sys2Proof.Machine
end

