-- ==== Sys2Proof/Laws/Memory.lean ====
section
/-! SUPPORT. The laws of memory: what a read sees after a write or a fill, and that every memory operation keeps the
canonical form (20_memory.md R30 to R34). The read laws hold for every list, canonical or not. -/

namespace Sys2Proof.Machine

/-! ## Reads -/

@[simp] theorem Memory.readKey_nil (k : Nat) : Memory.readKey [] k = Memory.unlisted := rfl

theorem Memory.readKey_cons (c : Host.Cell) (m : Memory) (k : Nat) :
    Memory.readKey (c :: m) k = if c.1 = k then c.2 else Memory.readKey m k := rfl

/-- A key no cell lists reads as unlisted. -/
theorem Memory.readKey_of_forall_ne {m : Memory} {k : Nat} (h : ∀ c ∈ m, c.1 ≠ k) :
    Memory.readKey m k = Memory.unlisted := by
  induction m with
  | nil => rfl
  | cons c m ih =>
    rw [Memory.readKey_cons, if_neg (h c (by simp)), ih (fun c' hc' => h c' (by simp [hc']))]

/-- Reading a filtered list: a key the filter keeps reads as before. -/
theorem Memory.readKey_filter_keep {p : Nat → Bool} (m : Memory) {k : Nat} (h : p k = true) :
    Memory.readKey (m.filter (fun c => p c.1)) k = Memory.readKey m k := by
  induction m with
  | nil => rfl
  | cons c m ih =>
    by_cases hc : p c.1 = true
    · rw [List.filter_cons_of_pos (by simpa using hc), Memory.readKey_cons, Memory.readKey_cons, ih]
    · rw [List.filter_cons_of_neg (by simpa using hc), Memory.readKey_cons, if_neg, ih]
      rintro rfl
      exact hc h

/-- Reading a filtered list: a key the filter drops reads as unlisted. -/
theorem Memory.readKey_filter_drop {p : Nat → Bool} (m : Memory) {k : Nat} (h : p k = false) :
    Memory.readKey (m.filter (fun c => p c.1)) k = Memory.unlisted := by
  apply Memory.readKey_of_forall_ne
  intro c hc hk
  have := (List.mem_filter.mp hc).2
  simp [hk, h] at this

/-- Reading after an insert of a key that was not listed. -/
theorem Memory.readKey_insert {m : Memory} {k : Nat} (h : ∀ c ∈ m, c.1 ≠ k) (v : Byte) (j : Nat) :
    Memory.readKey (Memory.insert m k v) j = if j = k then v else Memory.readKey m j := by
  induction m with
  | nil => simp [Memory.insert, Memory.readKey, eq_comm]
  | cons c m ih =>
    obtain ⟨k', v'⟩ := c
    have hk : k' ≠ k := h (k', v') (by simp)
    simp only [Memory.insert]
    split
    · rw [Memory.readKey_cons]
      simp only [eq_comm]
    · rw [Memory.readKey_cons, ih (fun c' hc' => h c' (by simp [hc'])), Memory.readKey_cons]
      by_cases hj : j = k
      · subst hj
        simp [hk]
      · simp [hj]

theorem Memory.filter_ne (m : Memory) (k : Nat) : ∀ c ∈ m.filter (fun c => c.1 != k), c.1 ≠ k := by
  intro c hc
  simpa using (List.mem_filter.mp hc).2

/-- Reading after a write, by key. -/
theorem Memory.readKey_writeKey (m : Memory) (k : Nat) (v : Byte) (j : Nat) :
    Memory.readKey (Memory.writeKey m k v) j = if j = k then v else Memory.readKey m j := by
  have keep : j ≠ k → Memory.readKey (m.filter (fun c => c.1 != k)) j = Memory.readKey m j := fun hj =>
    Memory.readKey_filter_keep (p := fun x => x != k) m (by simpa using hj)
  unfold Memory.writeKey
  split
  · next hv =>
    split
    · next hj =>
      subst hj hv
      exact Memory.readKey_of_forall_ne (Memory.filter_ne m j)
    · next hj => exact keep hj
  · rw [Memory.readKey_insert (Memory.filter_ne m k)]
    split
    · rfl
    · next hj => exact keep hj

/-- A read after a write to the same address gives the value written (R31). -/
@[simp] theorem Memory.read_write_same (m : Memory) (a : Word) (v : Byte) : (m.write a v).read a = v := by
  simp [Memory.read, Memory.write, Memory.readKey_writeKey]

/-- A write leaves every other address alone (R31). -/
theorem Memory.read_write_other (m : Memory) {a w : Word} (v : Byte) (h : w ≠ a) : (m.write a v).read w = m.read w := by
  have : w.toNat ≠ a.toNat := fun e => h (BitVec.eq_of_toNat_eq e)
  simp [Memory.read, Memory.write, Memory.readKey_writeKey, this]

theorem Memory.read_write (m : Memory) (a w : Word) (v : Byte) :
    (m.write a v).read w = if w = a then v else m.read w := by
  split
  · next h => rw [h, Memory.read_write_same]
  · next h => rw [Memory.read_write_other m v h]

/-- Reading an append: the first list that lists the key decides. -/
theorem Memory.readKey_append (m n : Memory) (k : Nat) :
    Memory.readKey (m ++ n) k = if (∃ c ∈ m, c.1 = k) then Memory.readKey m k else Memory.readKey n k := by
  induction m with
  | nil => simp
  | cons c m ih =>
    rw [List.cons_append, Memory.readKey_cons, Memory.readKey_cons, ih]
    by_cases hc : c.1 = k
    · simp [hc]
    · simp [hc]

/-- Reading a list made of the non-zero values of a function over keys. -/
theorem Memory.readKey_filterMap (g : Nat → Byte) (ks : List Nat) (k : Nat) :
    Memory.readKey (ks.filterMap (fun j => if g j = Memory.unlisted then none else some (j, g j))) k
      = if k ∈ ks then g k else Memory.unlisted := by
  induction ks with
  | nil => rfl
  | cons j ks ih =>
    by_cases hj : g j = Memory.unlisted
    · rw [List.filterMap_cons_none (by simp [hj]), ih]
      by_cases hk : k = j
      · subst hk
        simp [hj]
      · simp [hk]
    · rw [List.filterMap_cons_some (b := (j, g j)) (by simp [hj]), Memory.readKey_cons, ih]
      by_cases hk : j = k
      · subst hk
        simp
      · simp [hk, Ne.symm hk]

/-- A read after a fill: the filled range reads the function, every other address as before (R33, R34). -/
theorem Memory.read_fill (m : Memory) (lo hi : Word) (f : Word → Byte) (w : Word) :
    (m.fill lo hi f).read w = if lo ≤ w ∧ w ≤ hi then f w else m.read w := by
  have hw : BitVec.ofNat 16 w.toNat = w := by simp
  simp only [Memory.read, Memory.fill, BitVec.le_def]
  rw [List.append_assoc]
  set below : Memory := m.filter (fun c => decide (c.1 < lo.toNat)) with hbelow
  set above : Memory := m.filter (fun c => decide (hi.toNat < c.1)) with habove
  set mid : Memory := (List.range' lo.toNat (hi.toNat + 1 - lo.toNat)).filterMap
    (fun k => if f (BitVec.ofNat 16 k) = Memory.unlisted then none else some (k, f (BitVec.ofNat 16 k))) with hmid
  have rmid : Memory.readKey mid w.toNat
      = if lo.toNat ≤ w.toNat ∧ w.toNat < lo.toNat + (hi.toNat + 1 - lo.toNat) then f w else Memory.unlisted := by
    rw [hmid, Memory.readKey_filterMap (fun k => f (BitVec.ofNat 16 k))]
    simp only [List.mem_range'_1, hw]
  have nbelow : lo.toNat ≤ w.toNat → ¬ ∃ c ∈ below, c.1 = w.toNat := by
    rintro h ⟨c, hc, hk⟩
    have := (List.mem_filter.mp hc).2
    simp only [decide_eq_true_eq] at this
    omega
  have nmid : ¬ (lo.toNat ≤ w.toNat ∧ w.toNat ≤ hi.toNat) → ¬ ∃ c ∈ mid, c.1 = w.toNat := by
    rintro h ⟨c, hc, hk⟩
    obtain ⟨j, hj, hjc⟩ := List.mem_filterMap.mp hc
    rw [List.mem_range'_1] at hj
    split at hjc
    · cases hjc
    · cases hjc
      simp only at hk
      omega
  have rabove : hi.toNat < w.toNat → Memory.readKey above w.toNat = Memory.readKey m w.toNat := fun h =>
    Memory.readKey_filter_keep (p := fun k => decide (hi.toNat < k)) m (by simpa using h)
  have rabove' : ¬ hi.toNat < w.toNat → Memory.readKey above w.toNat = Memory.unlisted := fun h =>
    Memory.readKey_filter_drop (p := fun k => decide (hi.toNat < k)) m (by simpa using h)
  by_cases hin : lo.toNat ≤ w.toNat ∧ w.toNat ≤ hi.toNat
  · rw [if_pos hin, Memory.readKey_append, if_neg (nbelow hin.1), Memory.readKey_append]
    split
    · rw [rmid, if_pos (by omega)]
    · next hm =>
      rw [rabove' (by omega)]
      have : Memory.readKey mid w.toNat = Memory.unlisted :=
        Memory.readKey_of_forall_ne (fun c hc hk => hm ⟨c, hc, hk⟩)
      rw [rmid, if_pos (by omega)] at this
      exact this.symm
  · rw [if_neg hin, Memory.readKey_append]
    by_cases hlo : w.toNat < lo.toNat
    · have keep : Memory.readKey below w.toNat = Memory.readKey m w.toNat :=
        Memory.readKey_filter_keep (p := fun k => decide (k < lo.toNat)) m (by simpa using hlo)
      split
      · exact keep
      · next hb =>
        have hu : Memory.readKey below w.toNat = Memory.unlisted :=
          Memory.readKey_of_forall_ne (fun c hc hk => hb ⟨c, hc, hk⟩)
        rw [Memory.readKey_append, if_neg (nmid hin)]
        by_cases hhi : hi.toNat < w.toNat
        · exact rabove hhi
        · rw [rabove' hhi, ← hu, keep]
    · rw [if_neg (nbelow (by omega)), Memory.readKey_append, if_neg (nmid hin), rabove (by omega)]

/-! ## The canonical form -/

theorem Memory.wf_nil : Memory.wf [] := ⟨List.Pairwise.nil, fun _ hc => nomatch hc⟩

theorem Memory.wf_filter {m : Memory} (h : m.wf) (p : Host.Cell → Bool) : Memory.wf (m.filter p) :=
  ⟨h.1.filter p, fun c hc => h.2 c (List.mem_filter.mp hc).1⟩

theorem Memory.mem_insert {m : Memory} {k : Nat} {v : Byte} {c : Host.Cell} (h : c ∈ Memory.insert m k v) :
    c = (k, v) ∨ c ∈ m := by
  induction m with
  | nil => simpa [Memory.insert] using h
  | cons x m ih =>
    simp only [Memory.insert] at h
    split at h
    · simpa using h
    · rcases List.mem_cons.mp h with h | h
      · exact .inr (by simp [h])
      · rcases ih h with h | h
        · exact .inl h
        · exact .inr (by simp [h])

theorem Memory.wf_insert {m : Memory} (h : m.wf) {k : Nat} (hk : k < 65536) {v : Byte} (hv : v ≠ Memory.unlisted)
    (hne : ∀ c ∈ m, c.1 ≠ k) : (Memory.insert m k v).wf := by
  refine ⟨?_, ?_⟩
  · induction m with
    | nil => simp [Memory.insert]
    | cons x m ih =>
      have hx := List.pairwise_cons.mp h.1
      simp only [Memory.insert]
      split
      · next hlt =>
        refine List.pairwise_cons.mpr ⟨fun c hc => ?_, h.1⟩
        rcases List.mem_cons.mp hc with rfl | hc
        · exact hlt
        · exact Nat.lt_trans hlt (hx.1 c hc)
      · next hlt =>
        have hxk : x.1 ≠ k := hne x (by simp)
        have hm : Memory.wf m := ⟨hx.2, fun c hc => h.2 c (by simp [hc])⟩
        refine List.pairwise_cons.mpr ⟨fun c hc => ?_, ih hm (fun c hc => hne c (by simp [hc]))⟩
        rcases Memory.mem_insert hc with rfl | hc
        · show x.1 < k
          omega
        · exact hx.1 c hc
  · intro c hc
    rcases Memory.mem_insert hc with rfl | hc
    · exact ⟨hk, hv⟩
    · exact h.2 c hc

/-- A write keeps the canonical form. -/
theorem Memory.wf_write {m : Memory} (h : m.wf) (a : Word) (v : Byte) : (m.write a v).wf := by
  unfold Memory.write Memory.writeKey
  split
  · exact Memory.wf_filter h _
  · next hv => exact Memory.wf_insert (Memory.wf_filter h _) a.isLt hv (Memory.filter_ne m _)

/-- A fill keeps the canonical form. -/
theorem Memory.wf_fill {m : Memory} (h : m.wf) {lo hi : Word} (hle : lo ≤ hi) (f : Word → Byte) :
    (m.fill lo hi f).wf := by
  have hhi := hi.isLt
  rw [BitVec.le_def] at hle
  have mem_mid : ∀ c ∈ (List.range' lo.toNat (hi.toNat + 1 - lo.toNat)).filterMap
      (fun k => if f (BitVec.ofNat 16 k) = Memory.unlisted then none else some (k, f (BitVec.ofNat 16 k))),
      lo.toNat ≤ c.1 ∧ c.1 ≤ hi.toNat ∧ c.2 ≠ Memory.unlisted := by
    intro c hc
    obtain ⟨j, hj, hjc⟩ := List.mem_filterMap.mp hc
    rw [List.mem_range'_1] at hj
    split at hjc
    · cases hjc
    · next hu =>
      cases hjc
      exact ⟨by simpa using hj.1, by simp only; omega, hu⟩
  have mem_below : ∀ c ∈ m.filter (fun c => decide (c.1 < lo.toNat)), c.1 < lo.toNat ∧ c ∈ m := by
    intro c hc
    have := List.mem_filter.mp hc
    exact ⟨by simpa using this.2, this.1⟩
  have mem_above : ∀ c ∈ m.filter (fun c => decide (hi.toNat < c.1)), hi.toNat < c.1 ∧ c ∈ m := by
    intro c hc
    have := List.mem_filter.mp hc
    exact ⟨by simpa using this.2, this.1⟩
  refine ⟨?_, ?_⟩
  · unfold Memory.fill
    rw [List.append_assoc]
    refine List.pairwise_append.mpr ⟨h.1.filter _, List.pairwise_append.mpr ⟨?_, h.1.filter _, ?_⟩, ?_⟩
    · refine List.pairwise_filterMap.mpr ?_
      refine (List.pairwise_lt_range' (s := lo.toNat) (n := hi.toNat + 1 - lo.toNat)).imp ?_
      intro i j hij x hx y hy
      split at hx
      · cases hx
      · split at hy
        · cases hy
        · cases hx
          cases hy
          exact hij
    · intro x hx y hy
      have := (mem_mid x hx).2.1
      have := (mem_above y hy).1
      omega
    · intro x hx y hy
      have hxl := (mem_below x hx).1
      rcases List.mem_append.mp hy with hy | hy
      · have := (mem_mid y hy).1
        omega
      · have := (mem_above y hy).1
        omega
  · intro c hc
    unfold Memory.fill at hc
    rcases List.mem_append.mp hc with hc | hc
    · rcases List.mem_append.mp hc with hc | hc
      · exact h.2 c (mem_below c hc).2
      · have := mem_mid c hc
        exact ⟨by omega, this.2.2⟩
    · exact h.2 c (mem_above c hc).2

/-- An initial image is canonical, whatever its cells (R29). -/
theorem Memory.wf_ofCells (cells : List Host.Cell) : (Memory.ofCells cells).wf := by
  have key : ∀ (cs : List Host.Cell) (m : Memory), m.wf →
      (cs.foldl (fun m c => Memory.write m (BitVec.ofNat 16 c.1) c.2) m).wf := by
    intro cs
    induction cs with
    | nil => exact fun m h => h
    | cons c cs ih => exact fun m h => ih _ (Memory.wf_write h _ _)
  exact key cells [] Memory.wf_nil

/-! ## The bus -/

/-- A bus write keeps the canonical form (R31 to R34). -/
theorem busWrite_wf {m : Memory} (h : m.wf) (p : Params) (a : Word) (v : Byte) : (busWrite p m a v).wf := by
  unfold busWrite
  split
  · exact Memory.wf_write h a v
  · split
    · next hw =>
      have hle : p.windowLo ≤ p.windowHi := by
        simp only [inWindow, decide_eq_true_eq] at hw
        exact BitVec.le_trans hw.1 hw.2
      split
      · exact Memory.wf_fill h hle _
      · split
        · exact h
        · exact Memory.wf_write h a v
        · exact Memory.wf_fill h hle _
    · exact h

/-- What every byte reads after a bus write: the four cases of R31 to R34 at once. -/
theorem read_busWrite (p : Params) (m : Memory) (a w : Word) (v : Byte) :
    (busWrite p m a v).read w =
      if a < p.romBoundary then (if w = a then v else m.read w)
      else if inWindow p a = true then
        match (if strideOf a = 3 then ppiControl p v else none) with
        | some pat => if inWindow p w = true then patternByte pat (strideOf w) else m.read w
        | none =>
          match p.windowDataWrite with
          | .discard => m.read w
          | .store => if w = a then v else m.read w
          | .storeReplicated =>
            if inWindow p w = true then (if strideOf w = strideOf a then v else m.read w) else m.read w
      else m.read w := by
  unfold busWrite
  split
  · exact Memory.read_write m a w v
  · split
    · cases (if strideOf a = 3 then ppiControl p v else none) with
      | some pat => simp only [Memory.read_fill, inWindow, decide_eq_true_eq]
      | none =>
        cases p.windowDataWrite with
        | discard => rfl
        | store => exact Memory.read_write m a w v
        | storeReplicated => simp only [Memory.read_fill, inWindow, decide_eq_true_eq]
    · rfl

/-- A memory write keeps the canonical form. -/
theorem State.memWrite_wf {s : State} (h : s.mem.wf) (a : Word) (v : Byte) : (s.memWrite a v).mem.wf :=
  busWrite_wf h s.cfg a v

/-- A two-byte write keeps the canonical form. -/
theorem State.memWrite16_wf {s : State} (h : s.mem.wf) (a v : Word) : (s.memWrite16 a v).mem.wf :=
  busWrite_wf (busWrite_wf h _ _ _) _ _ _

/-- A push keeps the canonical form. -/
theorem State.push16_wf {s : State} (h : s.mem.wf) (v : Word) : (s.push16 v).mem.wf :=
  busWrite_wf (busWrite_wf h _ _ _) _ _ _

/-- The memory of State.reset is canonical. -/
theorem State.reset_mem_wf : State.reset.mem.wf := Memory.wf_ofCells _

end Sys2Proof.Machine
end

