-- ==== Sys2Proof/Laws/Ops.lean ====
section
/-! SUPPORT. What the stack, the word accesses, the pair writes and the counting functions of the ALU do, one lemma
each. -/

namespace Sys2Proof.Machine

/-! ## Words -/

/-- Two steps down are the two-byte step (R160). -/
theorem word_sub_two (w : Word) : w - 1 - 1 = w - 2 := by bv_omega

/-- Two steps up are the two-byte step (R160). -/
theorem word_add_two (w : Word) : w + 1 + 1 = w + 2 := by bv_omega

/-! ## The stack -/

theorem State.push16_sp_eq (s : State) (v : Word) : (s.push16 v).sp = s.sp - 2 := word_sub_two s.sp

theorem State.popped_sp_eq (s : State) : s.popped.sp = s.sp + 2 := word_add_two s.sp

/-- Memory after a push: the high byte offered at SP-1, then the low byte at SP-2 (R160). -/
theorem State.memRead_push16 (s : State) (v w : Word) :
    (s.push16 v).memRead w = ((s.memWrite (s.sp - 1) (hiByte v)).memWrite (s.sp - 2) (loByte v)).memRead w := by
  rw [← word_sub_two]; rfl

/-- The popped word's high byte is at SP+1 (R160). -/
theorem State.hiByte_popValue (s : State) : hiByte s.popValue = s.memRead (s.sp + 1) := hiByte_wordOf _ _

/-- The popped word's low byte is at SP (R160). -/
theorem State.loByte_popValue (s : State) : loByte s.popValue = s.memRead s.sp := loByte_wordOf _ _

/-! ## Word accesses -/

theorem State.hiByte_memRead16 (s : State) (a : Word) : hiByte (s.memRead16 a) = s.memRead (a + 1) := hiByte_wordOf _ _

theorem State.loByte_memRead16 (s : State) (a : Word) : loByte (s.memRead16 a) = s.memRead a := loByte_wordOf _ _

/-- A word write from HL offers L and then H (R109, R165). -/
theorem State.memWrite16_of_hl (s : State) (a : Word) :
    s.memWrite16 a s.hl = (s.memWrite a s.l).memWrite (a + 1) s.h := by
  rw [State.memWrite16, State.hl, hiByte_wordOf, loByte_wordOf]

/-- A pair reads what was written to it (R9, R10). -/
@[simp] theorem State.pair_setPair (s : State) (p : RegPair) (w : Word) : (s.setPair p w).pair p = w := by
  cases p <;> first
    | rfl
    | exact wordOf_halves w

/-! ## Updates of the flags alone -/

@[simp] theorem State.memRead_flags (s : State) (f : Flags) (w : Word) :
    State.memRead { s with flags := f } w = s.memRead w := rfl

theorem State.reg_flags (s : State) (f : Flags) (r : Reg) : State.reg { s with flags := f } r = s.reg r := by
  cases r <;> rfl

/-! ## Flag rules -/

theorem flagRules_base {p : Params} (h : p.mode = .base) : p.flagRules = .base := by simp only [Params.flagRules, h]

theorem flagRules_ext {p : Params} (h : p.mode = .ext) : p.flagRules = .ext p.extFlagRules := by
  simp only [Params.flagRules, h]

/-- Under the Z80 rules the details are the Z80's (D12). -/
@[simp] theorem extDetails_z80 (op : AluOp) (f : Flags) (d : ExtDetails) : extDetails .z80 op f d = d := rfl

/-- Under another set they are free (log entry 13). -/
@[simp] theorem extDetails_other (k : Nat) (op : AluOp) (f : Flags) (d : ExtDetails) :
    extDetails (.other k) op f d = Config.extDetails k op f := rfl

@[simp] theorem daaAfterSub_z80 (f : Flags) (a corr : Byte) : daaAfterSub .z80 f a corr = a - corr := rfl

/-! ## Results of the ALU that no flag rule touches -/

theorem inc8_fst (m : FlagRules) (f : Flags) (x : Byte) : (inc8 m f x).1 = x + 1 := by cases m <;> rfl

theorem dec8_fst (m : FlagRules) (f : Flags) (x : Byte) : (dec8 m f x).1 = x - 1 := by cases m <;> rfl

theorem add16_fst (m : FlagRules) (f : Flags) (hl x : Word) : (add16 m f hl x).1 = BitVec.ofNat 16 (hl.toNat + x.toNat) := by
  cases m <;> rfl

theorem sub8_fst (m : FlagRules) (f : Flags) (a b : Byte) (bin : Bool) :
    (sub8 m f a b bin).1 = BitVec.ofInt 8 ((a.toNat : Int) - (b.toNat : Int) - (bin.toNat : Int)) := by
  cases m <;> rfl

theorem add8_fst (m : FlagRules) (f : Flags) (a b : Byte) (cin : Bool) :
    (add8 m f a b cin).1 = BitVec.ofNat 8 (a.toNat + b.toNat + cin.toNat) := by
  cases m <;> rfl

end Sys2Proof.Machine
end

