-- ==== Sys2Proof/Laws/PerInstr.lean ====
section
/-! SUPPORT. The family Encoding: an encoded instruction has the length its own opcode byte tells in every mode whose
table holds it (30_encoding.md R50, R62), one lemma per constructor. -/

namespace Sys2Proof.Laws.Encoding

/-- The encoding of `i` is one to three bytes long, as its opcode byte and the mode say. -/
def Statement (i : Instr) : Prop :=
  ∀ m : Mode, i.wf m = true →
    (encode i).length = instrLength m ((encode i).getD 0 0) ∧ 1 ≤ (encode i).length ∧ (encode i).length ≤ 3

/-- A word instruction that is in the table of both modes. -/
theorem of_word {i : Instr} {op : Byte} {w : Word} (he : encode i = encodeWord op w)
    (h : op.toNat ∈ threeByteOpcodes) : Statement i := fun m _ => by
  rw [he]; exact ⟨(if_pos h).symm, Nat.le_add_left 1 2, Nat.le_refl 3⟩

/-- A word instruction that is in the table of BASE alone. -/
theorem of_word_base {i : Instr} {op : Byte} {w : Word} (he : encode i = encodeWord op w)
    (hext : i.wf .ext = false) (h : i.wf .base = true → instrLength .base op = 3) : Statement i := fun m hw => by
  cases m with
  | base => rw [he]; exact ⟨(h hw).symm, Nat.le_add_left 1 2, Nat.le_refl 3⟩
  | ext => rw [hext] at hw; cases hw

theorem movRR (dst : Reg) (src : Reg) : Statement (.movRR dst src) := by
  intro m _; cases dst <;> cases src <;> cases m <;> exact ⟨rfl, by simp [encode]⟩

theorem movRM (dst : Reg) : Statement (.movRM dst) := by
  intro m _; cases dst <;> cases m <;> exact ⟨rfl, by simp [encode]⟩

theorem movMR (src : Reg) : Statement (.movMR src) := by
  intro m _; cases src <;> cases m <;> exact ⟨rfl, by simp [encode]⟩

theorem mviR (dst : Reg) (v : Byte) : Statement (.mviR dst v) := by
  intro m _; cases dst <;> cases m <;> exact ⟨rfl, by simp [encode]⟩

theorem mviM (v : Byte) : Statement (.mviM v) := by
  intro m _; cases m <;> exact ⟨rfl, by simp [encode]⟩

theorem lxi (p : RegPair) (w : Word) : Statement (.lxi p w) := by
  cases p <;> exact of_word rfl (by decide)

theorem lda (w : Word) : Statement (.lda w) :=
  of_word rfl (by decide)

theorem sta (w : Word) : Statement (.sta w) :=
  of_word rfl (by decide)

theorem lhld (w : Word) : Statement (.lhld w) :=
  of_word rfl (by decide)

theorem shld (w : Word) : Statement (.shld w) :=
  of_word rfl (by decide)

theorem ldax (p : AddrPair) : Statement (.ldax p) := by
  intro m _; cases p <;> cases m <;> exact ⟨rfl, by simp [encode]⟩

theorem stax (p : AddrPair) : Statement (.stax p) := by
  intro m _; cases p <;> cases m <;> exact ⟨rfl, by simp [encode]⟩

theorem xchg : Statement (.xchg) := by
  intro m _; cases m <;> exact ⟨rfl, by simp [encode]⟩

theorem addR (src : Reg) : Statement (.addR src) := by
  intro m _; cases src <;> cases m <;> exact ⟨rfl, by simp [encode]⟩

theorem addM : Statement (.addM) := by
  intro m _; cases m <;> exact ⟨rfl, by simp [encode]⟩

theorem adi (v : Byte) : Statement (.adi v) := by
  intro m _; cases m <;> exact ⟨rfl, by simp [encode]⟩

theorem adcR (src : Reg) : Statement (.adcR src) := by
  intro m _; cases src <;> cases m <;> exact ⟨rfl, by simp [encode]⟩

theorem adcM : Statement (.adcM) := by
  intro m _; cases m <;> exact ⟨rfl, by simp [encode]⟩

theorem aci (v : Byte) : Statement (.aci v) := by
  intro m _; cases m <;> exact ⟨rfl, by simp [encode]⟩

theorem subR (src : Reg) : Statement (.subR src) := by
  intro m _; cases src <;> cases m <;> exact ⟨rfl, by simp [encode]⟩

theorem subM : Statement (.subM) := by
  intro m _; cases m <;> exact ⟨rfl, by simp [encode]⟩

theorem sui (v : Byte) : Statement (.sui v) := by
  intro m _; cases m <;> exact ⟨rfl, by simp [encode]⟩

theorem sbbR (src : Reg) : Statement (.sbbR src) := by
  intro m _; cases src <;> cases m <;> exact ⟨rfl, by simp [encode]⟩

theorem sbbM : Statement (.sbbM) := by
  intro m _; cases m <;> exact ⟨rfl, by simp [encode]⟩

theorem sbi (v : Byte) : Statement (.sbi v) := by
  intro m _; cases m <;> exact ⟨rfl, by simp [encode]⟩

theorem inrR (dst : Reg) : Statement (.inrR dst) := by
  intro m _; cases dst <;> cases m <;> exact ⟨rfl, by simp [encode]⟩

theorem inrM : Statement (.inrM) := by
  intro m _; cases m <;> exact ⟨rfl, by simp [encode]⟩

theorem dcrR (dst : Reg) : Statement (.dcrR dst) := by
  intro m _; cases dst <;> cases m <;> exact ⟨rfl, by simp [encode]⟩

theorem dcrM : Statement (.dcrM) := by
  intro m _; cases m <;> exact ⟨rfl, by simp [encode]⟩

theorem inx (p : RegPair) : Statement (.inx p) := by
  intro m _; cases p <;> cases m <;> exact ⟨rfl, by simp [encode]⟩

theorem dcx (p : RegPair) : Statement (.dcx p) := by
  intro m _; cases p <;> cases m <;> exact ⟨rfl, by simp [encode]⟩

theorem dad (p : RegPair) : Statement (.dad p) := by
  intro m _; cases p <;> cases m <;> exact ⟨rfl, by simp [encode]⟩

theorem daa : Statement (.daa) := by
  intro m _; cases m <;> exact ⟨rfl, by simp [encode]⟩

theorem anaR (src : Reg) : Statement (.anaR src) := by
  intro m _; cases src <;> cases m <;> exact ⟨rfl, by simp [encode]⟩

theorem anaM : Statement (.anaM) := by
  intro m _; cases m <;> exact ⟨rfl, by simp [encode]⟩

theorem ani (v : Byte) : Statement (.ani v) := by
  intro m _; cases m <;> exact ⟨rfl, by simp [encode]⟩

theorem xraR (src : Reg) : Statement (.xraR src) := by
  intro m _; cases src <;> cases m <;> exact ⟨rfl, by simp [encode]⟩

theorem xraM : Statement (.xraM) := by
  intro m _; cases m <;> exact ⟨rfl, by simp [encode]⟩

theorem xri (v : Byte) : Statement (.xri v) := by
  intro m _; cases m <;> exact ⟨rfl, by simp [encode]⟩

theorem oraR (src : Reg) : Statement (.oraR src) := by
  intro m _; cases src <;> cases m <;> exact ⟨rfl, by simp [encode]⟩

theorem oraM : Statement (.oraM) := by
  intro m _; cases m <;> exact ⟨rfl, by simp [encode]⟩

theorem ori (v : Byte) : Statement (.ori v) := by
  intro m _; cases m <;> exact ⟨rfl, by simp [encode]⟩

theorem cmpR (src : Reg) : Statement (.cmpR src) := by
  intro m _; cases src <;> cases m <;> exact ⟨rfl, by simp [encode]⟩

theorem cmpM : Statement (.cmpM) := by
  intro m _; cases m <;> exact ⟨rfl, by simp [encode]⟩

theorem cpi (v : Byte) : Statement (.cpi v) := by
  intro m _; cases m <;> exact ⟨rfl, by simp [encode]⟩

theorem rlc : Statement (.rlc) := by
  intro m _; cases m <;> exact ⟨rfl, by simp [encode]⟩

theorem rrc : Statement (.rrc) := by
  intro m _; cases m <;> exact ⟨rfl, by simp [encode]⟩

theorem ral : Statement (.ral) := by
  intro m _; cases m <;> exact ⟨rfl, by simp [encode]⟩

theorem rar : Statement (.rar) := by
  intro m _; cases m <;> exact ⟨rfl, by simp [encode]⟩

theorem cma : Statement (.cma) := by
  intro m _; cases m <;> exact ⟨rfl, by simp [encode]⟩

theorem cmc : Statement (.cmc) := by
  intro m _; cases m <;> exact ⟨rfl, by simp [encode]⟩

theorem stc : Statement (.stc) := by
  intro m _; cases m <;> exact ⟨rfl, by simp [encode]⟩

theorem jmp (w : Word) : Statement (.jmp w) :=
  of_word rfl (by decide)

theorem jmpAlias (w : Word) : Statement (.jmpAlias w) :=
  of_word_base (op := 0xCB) rfl rfl (fun _ => rfl)

theorem jcc (cc : Cond) (w : Word) : Statement (.jcc cc w) := by
  cases cc <;> exact of_word rfl (by decide)

theorem call (w : Word) : Statement (.call w) :=
  of_word rfl (by decide)

theorem callAlias (k : BitVec 2) (w : Word) : Statement (.callAlias k w) :=
  of_word_base rfl (by simp [Instr.wf]) (by simp only [Instr.wf]; revert k; decide)

theorem ccc (cc : Cond) (w : Word) : Statement (.ccc cc w) := by
  cases cc <;> exact of_word rfl (by decide)

theorem ret : Statement (.ret) := by
  intro m _; cases m <;> exact ⟨rfl, by simp [encode]⟩

theorem retAlias : Statement (.retAlias) := by
  intro m _; cases m <;> exact ⟨rfl, by simp [encode]⟩

theorem rcc (cc : Cond) : Statement (.rcc cc) := by
  intro m _; cases cc <;> cases m <;> exact ⟨rfl, by simp [encode]⟩

theorem rst (n : BitVec 3) : Statement (.rst n) := by
  intro m; revert n; cases m <;> decide

theorem pchl : Statement (.pchl) := by
  intro m _; cases m <;> exact ⟨rfl, by simp [encode]⟩

theorem push (p : StackPair) : Statement (.push p) := by
  intro m _; cases p <;> cases m <;> exact ⟨rfl, by simp [encode]⟩

theorem pushPsw : Statement (.pushPsw) := by
  intro m _; cases m <;> exact ⟨rfl, by simp [encode]⟩

theorem pop (p : StackPair) : Statement (.pop p) := by
  intro m _; cases p <;> cases m <;> exact ⟨rfl, by simp [encode]⟩

theorem popPsw : Statement (.popPsw) := by
  intro m _; cases m <;> exact ⟨rfl, by simp [encode]⟩

theorem xthl : Statement (.xthl) := by
  intro m _; cases m <;> exact ⟨rfl, by simp [encode]⟩

theorem sphl : Statement (.sphl) := by
  intro m _; cases m <;> exact ⟨rfl, by simp [encode]⟩

theorem inPort (v : Byte) : Statement (.inPort v) := by
  intro m _; cases m <;> exact ⟨rfl, by simp [encode]⟩

theorem outPort (v : Byte) : Statement (.outPort v) := by
  intro m _; cases m <;> exact ⟨rfl, by simp [encode]⟩

theorem ei : Statement (.ei) := by
  intro m _; cases m <;> exact ⟨rfl, by simp [encode]⟩

theorem di : Statement (.di) := by
  intro m _; cases m <;> exact ⟨rfl, by simp [encode]⟩

theorem hlt : Statement (.hlt) := by
  intro m _; cases m <;> exact ⟨rfl, by simp [encode]⟩

theorem nop : Statement (.nop) := by
  intro m _; cases m <;> exact ⟨rfl, by simp [encode]⟩

theorem nopAlias (k : BitVec 3) : Statement (.nopAlias k) := by
  intro m; revert k; cases m <;> decide

theorem exAfAf : Statement (.exAfAf) := by
  intro m _; cases m <;> exact ⟨rfl, by simp [encode]⟩

theorem exx : Statement (.exx) := by
  intro m _; cases m <;> exact ⟨rfl, by simp [encode]⟩

theorem djnz (d : Byte) : Statement (.djnz d) := by
  intro m h; cases m <;> first | exact ⟨rfl, by simp [encode]⟩ | cases h

theorem jr (d : Byte) : Statement (.jr d) := by
  intro m h; cases m <;> first | exact ⟨rfl, by simp [encode]⟩ | cases h

theorem jrCc (cc : JrCond) (d : Byte) : Statement (.jrCc cc d) := by
  intro m h; cases cc <;> cases m <;> first | exact ⟨rfl, by simp [encode]⟩ | cases h

theorem prefixCB : Statement (.prefixCB) := by
  intro m h; cases m <;> first | exact ⟨rfl, by simp [encode]⟩ | cases h

theorem prefixDD : Statement (.prefixDD) := by
  intro m h; cases m <;> first | exact ⟨rfl, by simp [encode]⟩ | cases h

theorem prefixED : Statement (.prefixED) := by
  intro m h; cases m <;> first | exact ⟨rfl, by simp [encode]⟩ | cases h

theorem prefixFD : Statement (.prefixFD) := by
  intro m h; cases m <;> first | exact ⟨rfl, by simp [encode]⟩ | cases h

end Sys2Proof.Laws.Encoding
end

