-- ==== Sys2Proof/Laws/Step.lean ====
section
/-! SUPPORT. The step and the run, one small fact each. -/

namespace Sys2Proof.Machine

theorem step_eq (s : State) : step s = exec s.fetch s := rfl

/-- The fetch goes through the table of the configured mode (R66). -/
theorem State.fetch_eq (s : State) :
    s.fetch = decodeOpcode s.cfg.mode (s.memRead s.pc) (s.memRead (s.pc + 1)) (s.memRead (s.pc + 2)) := rfl

theorem next_inj {s t : State} (h : (.next s : Host.Outcome State Fault Refusal) = .next t) : s = t := by
  injection h

/-- No steps leave the state. -/
theorem run_zero (s : State) : core.run 0 s = .next s := rfl

/-- One step, then the rest. -/
theorem run_succ (n : Nat) {s t : State} (h : step s = .next t) : core.run (n + 1) s = core.run n t := by
  simp only [Host.Core.run]
  rw [show core.step s = .next t from h]

end Sys2Proof.Machine
end

