-- ==== Sys2Proof/Laws/Ticks.lean ====
section
/-! SUPPORT. What an instruction costs: the entry of its opcode, at the decided tables a number of R201 or R202, and the
end of an instruction that pays it. -/

namespace Sys2Proof.Machine

/-- A cost depends on the parameters alone. -/
theorem State.cost_of_cfg {s t : State} (h : t.cfg = s.cfg) (i : Instr) (taken : Bool) :
    t.cost i taken = s.cost i taken := by
  simp only [State.cost, h]

/-- BASE reads TICKS_BASE (R201). -/
theorem tickEntry_base {p : Params} (h : DecidedTicks p) (hm : p.mode = .base) (op : Byte) :
    tickEntry p op = tickCell decidedTicksBase op := by
  simp only [tickEntry, hm, h.1]

/-- EXT reads TICKS_EXT but for the prefix bytes (R202). -/
theorem tickEntry_ext {p : Params} (h : DecidedTicks p) (hm : p.mode = .ext) {op : Byte}
    (hop : op.toNat ∉ [0xCB, 0xDD, 0xED, 0xFD]) : tickEntry p op = tickCell decidedTicksExt op := by
  simp only [tickEntry, hm, if_neg hop, h.2]

/-- In EXT a prefix byte costs PREFIX_TICKS, whatever the tables (R178). -/
theorem tickEntry_prefix {p : Params} (hm : p.mode = .ext) {op : Byte} (hop : op.toNat ∈ [0xCB, 0xDD, 0xED, 0xFD]) :
    tickEntry p op = (p.prefixTicks, p.prefixTicks) := by
  simp only [tickEntry, hm, if_pos hop]

/-! ## The cells of the decided tables, one lemma per instruction -/

/-- The cell of an opcode in the decided TICKS_BASE. -/
abbrev DecidedBaseCell (op : Byte) (c : Nat × Nat) : Prop := tickCell decidedTicksBase op = c

/-- The cell of an opcode that is no prefix byte in the decided TICKS_EXT. -/
abbrev DecidedExtCell (op : Byte) (c : Nat × Nat) : Prop :=
  op.toNat ∉ [0xCB, 0xDD, 0xED, 0xFD] ∧ tickCell decidedTicksExt op = c

/-- The cells of an opcode of both modes. -/
abbrev DecidedCells (op : Byte) (base ext : Nat × Nat) : Prop := DecidedBaseCell op base ∧ DecidedExtCell op ext

theorem decidedCells_movRR (dst : Reg) (src : Reg) : DecidedCells (Instr.movRR dst src).opcode (5, 5) (4, 4) := by
  show DecidedCells (0b01#2 ++ dst.code ++ src.code) (5, 5) (4, 4); cases dst <;> cases src <;> decide
theorem decidedCells_movRM (dst : Reg) : DecidedCells (Instr.movRM dst).opcode (7, 7) (7, 7) := by
  show DecidedCells (0b01#2 ++ dst.code ++ 0b110#3) (7, 7) (7, 7); cases dst <;> decide
theorem decidedCells_movMR (s : Reg) : DecidedCells (Instr.movMR s).opcode (7, 7) (7, 7) := by
  show DecidedCells (0b01110#5 ++ s.code) (7, 7) (7, 7); cases s <;> decide
theorem decidedCells_mviR (dst : Reg) (v : Byte) : DecidedCells (Instr.mviR dst v).opcode (7, 7) (7, 7) := by
  show DecidedCells (0b00#2 ++ dst.code ++ 0b110#3) (7, 7) (7, 7); cases dst <;> decide
theorem decidedCells_mviM (v : Byte) : DecidedCells (Instr.mviM v).opcode (10, 10) (10, 10) := by
  show DecidedCells (0b00110110) (10, 10) (10, 10); decide
theorem decidedCells_lxi (p : RegPair) (w : Word) : DecidedCells (Instr.lxi p w).opcode (10, 10) (10, 10) := by
  show DecidedCells (0b00#2 ++ p.code ++ 0b0001#4) (10, 10) (10, 10); cases p <;> decide
theorem decidedCells_lda (w : Word) : DecidedCells (Instr.lda w).opcode (13, 13) (13, 13) := by
  show DecidedCells (0b00111010) (13, 13) (13, 13); decide
theorem decidedCells_sta (w : Word) : DecidedCells (Instr.sta w).opcode (13, 13) (13, 13) := by
  show DecidedCells (0b00110010) (13, 13) (13, 13); decide
theorem decidedCells_lhld (w : Word) : DecidedCells (Instr.lhld w).opcode (16, 16) (16, 16) := by
  show DecidedCells (0b00101010) (16, 16) (16, 16); decide
theorem decidedCells_shld (w : Word) : DecidedCells (Instr.shld w).opcode (16, 16) (16, 16) := by
  show DecidedCells (0b00100010) (16, 16) (16, 16); decide
theorem decidedCells_ldax (p : AddrPair) : DecidedCells (Instr.ldax p).opcode (7, 7) (7, 7) := by
  show DecidedCells (0b000#3 ++ p.code ++ 0b1010#4) (7, 7) (7, 7); cases p <;> decide
theorem decidedCells_stax (p : AddrPair) : DecidedCells (Instr.stax p).opcode (7, 7) (7, 7) := by
  show DecidedCells (0b000#3 ++ p.code ++ 0b0010#4) (7, 7) (7, 7); cases p <;> decide
theorem decidedCells_xchg : DecidedCells Instr.xchg.opcode (4, 4) (4, 4) := by
  show DecidedCells (0b11101011) (4, 4) (4, 4); decide
theorem decidedCells_addR (s : Reg) : DecidedCells (Instr.addR s).opcode (4, 4) (4, 4) := by
  show DecidedCells (0b10000#5 ++ s.code) (4, 4) (4, 4); cases s <;> decide
theorem decidedCells_addM : DecidedCells Instr.addM.opcode (7, 7) (7, 7) := by
  show DecidedCells (0b10000110) (7, 7) (7, 7); decide
theorem decidedCells_adi (v : Byte) : DecidedCells (Instr.adi v).opcode (7, 7) (7, 7) := by
  show DecidedCells (0b11000110) (7, 7) (7, 7); decide
theorem decidedCells_adcR (s : Reg) : DecidedCells (Instr.adcR s).opcode (4, 4) (4, 4) := by
  show DecidedCells (0b10001#5 ++ s.code) (4, 4) (4, 4); cases s <;> decide
theorem decidedCells_adcM : DecidedCells Instr.adcM.opcode (7, 7) (7, 7) := by
  show DecidedCells (0b10001110) (7, 7) (7, 7); decide
theorem decidedCells_aci (v : Byte) : DecidedCells (Instr.aci v).opcode (7, 7) (7, 7) := by
  show DecidedCells (0b11001110) (7, 7) (7, 7); decide
theorem decidedCells_subR (s : Reg) : DecidedCells (Instr.subR s).opcode (4, 4) (4, 4) := by
  show DecidedCells (0b10010#5 ++ s.code) (4, 4) (4, 4); cases s <;> decide
theorem decidedCells_subM : DecidedCells Instr.subM.opcode (7, 7) (7, 7) := by
  show DecidedCells (0b10010110) (7, 7) (7, 7); decide
theorem decidedCells_sui (v : Byte) : DecidedCells (Instr.sui v).opcode (7, 7) (7, 7) := by
  show DecidedCells (0b11010110) (7, 7) (7, 7); decide
theorem decidedCells_sbbR (s : Reg) : DecidedCells (Instr.sbbR s).opcode (4, 4) (4, 4) := by
  show DecidedCells (0b10011#5 ++ s.code) (4, 4) (4, 4); cases s <;> decide
theorem decidedCells_sbbM : DecidedCells Instr.sbbM.opcode (7, 7) (7, 7) := by
  show DecidedCells (0b10011110) (7, 7) (7, 7); decide
theorem decidedCells_sbi (v : Byte) : DecidedCells (Instr.sbi v).opcode (7, 7) (7, 7) := by
  show DecidedCells (0b11011110) (7, 7) (7, 7); decide
theorem decidedCells_inrR (dst : Reg) : DecidedCells (Instr.inrR dst).opcode (5, 5) (4, 4) := by
  show DecidedCells (0b00#2 ++ dst.code ++ 0b100#3) (5, 5) (4, 4); cases dst <;> decide
theorem decidedCells_inrM : DecidedCells Instr.inrM.opcode (10, 10) (11, 11) := by
  show DecidedCells (0b00110100) (10, 10) (11, 11); decide
theorem decidedCells_dcrR (dst : Reg) : DecidedCells (Instr.dcrR dst).opcode (5, 5) (4, 4) := by
  show DecidedCells (0b00#2 ++ dst.code ++ 0b101#3) (5, 5) (4, 4); cases dst <;> decide
theorem decidedCells_dcrM : DecidedCells Instr.dcrM.opcode (10, 10) (11, 11) := by
  show DecidedCells (0b00110101) (10, 10) (11, 11); decide
theorem decidedCells_inx (p : RegPair) : DecidedCells (Instr.inx p).opcode (5, 5) (6, 6) := by
  show DecidedCells (0b00#2 ++ p.code ++ 0b0011#4) (5, 5) (6, 6); cases p <;> decide
theorem decidedCells_dcx (p : RegPair) : DecidedCells (Instr.dcx p).opcode (5, 5) (6, 6) := by
  show DecidedCells (0b00#2 ++ p.code ++ 0b1011#4) (5, 5) (6, 6); cases p <;> decide
theorem decidedCells_dad (p : RegPair) : DecidedCells (Instr.dad p).opcode (10, 10) (11, 11) := by
  show DecidedCells (0b00#2 ++ p.code ++ 0b1001#4) (10, 10) (11, 11); cases p <;> decide
theorem decidedCells_daa : DecidedCells Instr.daa.opcode (4, 4) (4, 4) := by
  show DecidedCells (0b00100111) (4, 4) (4, 4); decide
theorem decidedCells_anaR (s : Reg) : DecidedCells (Instr.anaR s).opcode (4, 4) (4, 4) := by
  show DecidedCells (0b10100#5 ++ s.code) (4, 4) (4, 4); cases s <;> decide
theorem decidedCells_anaM : DecidedCells Instr.anaM.opcode (7, 7) (7, 7) := by
  show DecidedCells (0b10100110) (7, 7) (7, 7); decide
theorem decidedCells_ani (v : Byte) : DecidedCells (Instr.ani v).opcode (7, 7) (7, 7) := by
  show DecidedCells (0b11100110) (7, 7) (7, 7); decide
theorem decidedCells_xraR (s : Reg) : DecidedCells (Instr.xraR s).opcode (4, 4) (4, 4) := by
  show DecidedCells (0b10101#5 ++ s.code) (4, 4) (4, 4); cases s <;> decide
theorem decidedCells_xraM : DecidedCells Instr.xraM.opcode (7, 7) (7, 7) := by
  show DecidedCells (0b10101110) (7, 7) (7, 7); decide
theorem decidedCells_xri (v : Byte) : DecidedCells (Instr.xri v).opcode (7, 7) (7, 7) := by
  show DecidedCells (0b11101110) (7, 7) (7, 7); decide
theorem decidedCells_oraR (s : Reg) : DecidedCells (Instr.oraR s).opcode (4, 4) (4, 4) := by
  show DecidedCells (0b10110#5 ++ s.code) (4, 4) (4, 4); cases s <;> decide
theorem decidedCells_oraM : DecidedCells Instr.oraM.opcode (7, 7) (7, 7) := by
  show DecidedCells (0b10110110) (7, 7) (7, 7); decide
theorem decidedCells_ori (v : Byte) : DecidedCells (Instr.ori v).opcode (7, 7) (7, 7) := by
  show DecidedCells (0b11110110) (7, 7) (7, 7); decide
theorem decidedCells_cmpR (s : Reg) : DecidedCells (Instr.cmpR s).opcode (4, 4) (4, 4) := by
  show DecidedCells (0b10111#5 ++ s.code) (4, 4) (4, 4); cases s <;> decide
theorem decidedCells_cmpM : DecidedCells Instr.cmpM.opcode (7, 7) (7, 7) := by
  show DecidedCells (0b10111110) (7, 7) (7, 7); decide
theorem decidedCells_cpi (v : Byte) : DecidedCells (Instr.cpi v).opcode (7, 7) (7, 7) := by
  show DecidedCells (0b11111110) (7, 7) (7, 7); decide
theorem decidedCells_rlc : DecidedCells Instr.rlc.opcode (4, 4) (4, 4) := by
  show DecidedCells (0b00000111) (4, 4) (4, 4); decide
theorem decidedCells_rrc : DecidedCells Instr.rrc.opcode (4, 4) (4, 4) := by
  show DecidedCells (0b00001111) (4, 4) (4, 4); decide
theorem decidedCells_ral : DecidedCells Instr.ral.opcode (4, 4) (4, 4) := by
  show DecidedCells (0b00010111) (4, 4) (4, 4); decide
theorem decidedCells_rar : DecidedCells Instr.rar.opcode (4, 4) (4, 4) := by
  show DecidedCells (0b00011111) (4, 4) (4, 4); decide
theorem decidedCells_cma : DecidedCells Instr.cma.opcode (4, 4) (4, 4) := by
  show DecidedCells (0b00101111) (4, 4) (4, 4); decide
theorem decidedCells_cmc : DecidedCells Instr.cmc.opcode (4, 4) (4, 4) := by
  show DecidedCells (0b00111111) (4, 4) (4, 4); decide
theorem decidedCells_stc : DecidedCells Instr.stc.opcode (4, 4) (4, 4) := by
  show DecidedCells (0b00110111) (4, 4) (4, 4); decide
theorem decidedCells_jmp (w : Word) : DecidedCells (Instr.jmp w).opcode (10, 10) (10, 10) := by
  show DecidedCells (0b11000011) (10, 10) (10, 10); decide
theorem decidedCells_jcc (cc : Cond) (w : Word) : DecidedCells (Instr.jcc cc w).opcode (10, 10) (10, 10) := by
  show DecidedCells (0b11#2 ++ cc.code ++ 0b010#3) (10, 10) (10, 10); cases cc <;> decide
theorem decidedCells_call (w : Word) : DecidedCells (Instr.call w).opcode (17, 17) (17, 17) := by
  show DecidedCells (0b11001101) (17, 17) (17, 17); decide
theorem decidedCells_ccc (cc : Cond) (w : Word) : DecidedCells (Instr.ccc cc w).opcode (17, 11) (17, 10) := by
  show DecidedCells (0b11#2 ++ cc.code ++ 0b100#3) (17, 11) (17, 10); cases cc <;> decide
theorem decidedCells_ret : DecidedCells Instr.ret.opcode (10, 10) (10, 10) := by
  show DecidedCells (0b11001001) (10, 10) (10, 10); decide
theorem decidedCells_rcc (cc : Cond) : DecidedCells (Instr.rcc cc).opcode (11, 5) (11, 5) := by
  show DecidedCells (0b11#2 ++ cc.code ++ 0b000#3) (11, 5) (11, 5); cases cc <;> decide
theorem decidedCells_rst (n : BitVec 3) : DecidedCells (Instr.rst n).opcode (11, 11) (11, 11) := by
  show DecidedCells (0b11#2 ++ n ++ 0b111#3) (11, 11) (11, 11); revert n; decide
theorem decidedCells_pchl : DecidedCells Instr.pchl.opcode (5, 5) (4, 4) := by
  show DecidedCells (0b11101001) (5, 5) (4, 4); decide
theorem decidedCells_push (p : StackPair) : DecidedCells (Instr.push p).opcode (11, 11) (11, 11) := by
  show DecidedCells (0b11#2 ++ p.code ++ 0b0101#4) (11, 11) (11, 11); cases p <;> decide
theorem decidedCells_pushPsw : DecidedCells Instr.pushPsw.opcode (11, 11) (11, 11) := by
  show DecidedCells (0b11110101) (11, 11) (11, 11); decide
theorem decidedCells_pop (p : StackPair) : DecidedCells (Instr.pop p).opcode (10, 10) (10, 10) := by
  show DecidedCells (0b11#2 ++ p.code ++ 0b0001#4) (10, 10) (10, 10); cases p <;> decide
theorem decidedCells_popPsw : DecidedCells Instr.popPsw.opcode (10, 10) (10, 10) := by
  show DecidedCells (0b11110001) (10, 10) (10, 10); decide
theorem decidedCells_xthl : DecidedCells Instr.xthl.opcode (18, 18) (19, 19) := by
  show DecidedCells (0b11100011) (18, 18) (19, 19); decide
theorem decidedCells_sphl : DecidedCells Instr.sphl.opcode (5, 5) (6, 6) := by
  show DecidedCells (0b11111001) (5, 5) (6, 6); decide
theorem decidedCells_inPort (v : Byte) : DecidedCells (Instr.inPort v).opcode (10, 10) (11, 11) := by
  show DecidedCells (0b11011011) (10, 10) (11, 11); decide
theorem decidedCells_outPort (v : Byte) : DecidedCells (Instr.outPort v).opcode (10, 10) (11, 11) := by
  show DecidedCells (0b11010011) (10, 10) (11, 11); decide
theorem decidedCells_ei : DecidedCells Instr.ei.opcode (4, 4) (4, 4) := by
  show DecidedCells (0b11111011) (4, 4) (4, 4); decide
theorem decidedCells_di : DecidedCells Instr.di.opcode (4, 4) (4, 4) := by
  show DecidedCells (0b11110011) (4, 4) (4, 4); decide
theorem decidedCells_hlt : DecidedCells Instr.hlt.opcode (7, 7) (4, 4) := by
  show DecidedCells (0b01110110) (7, 7) (4, 4); decide
theorem decidedCells_nop : DecidedCells Instr.nop.opcode (4, 4) (4, 4) := by
  show DecidedCells (0b00000000) (4, 4) (4, 4); decide

/-! The duplicates of BASE (R59, R201). -/

theorem decidedBaseCell_jmpAlias (w : Word) : DecidedBaseCell (Instr.jmpAlias w).opcode (10, 10) := by
  show DecidedBaseCell (0b11001011) (10, 10); decide
theorem decidedBaseCell_callAlias (k : BitVec 2) (w : Word) :
    DecidedBaseCell (Instr.callAlias k w).opcode (17, 17) := by
  show DecidedBaseCell (0b11#2 ++ k ++ 0b1101#4) (17, 17); revert k; decide
theorem decidedBaseCell_retAlias : DecidedBaseCell Instr.retAlias.opcode (10, 10) := by
  show DecidedBaseCell (0b11011001) (10, 10); decide
theorem decidedBaseCell_nopAlias (k : BitVec 3) : DecidedBaseCell (Instr.nopAlias k).opcode (4, 4) := by
  show DecidedBaseCell (0b00#2 ++ k ++ 0b000#3) (4, 4); revert k; decide

/-! The instructions of EXT alone (R202). -/

theorem decidedExtCell_exAfAf : DecidedExtCell Instr.exAfAf.opcode (4, 4) := by
  show DecidedExtCell (0b00001000) (4, 4); decide
theorem decidedExtCell_exx : DecidedExtCell Instr.exx.opcode (4, 4) := by
  show DecidedExtCell (0b11011001) (4, 4); decide
theorem decidedExtCell_djnz (d : Byte) : DecidedExtCell (Instr.djnz d).opcode (13, 8) := by
  show DecidedExtCell (0b00010000) (13, 8); decide
theorem decidedExtCell_jr (d : Byte) : DecidedExtCell (Instr.jr d).opcode (12, 12) := by
  show DecidedExtCell (0b00011000) (12, 12); decide
theorem decidedExtCell_jrCc (cc : JrCond) (d : Byte) : DecidedExtCell (Instr.jrCc cc d).opcode (12, 7) := by
  show DecidedExtCell (0b001#3 ++ cc.code ++ 0b000#3) (12, 7); cases cc <;> decide

/-! ## Costs -/

/-- The first or the second number of a cell. -/
def pickCost (taken : Bool) (c : Nat × Nat) : Nat := if taken then c.1 else c.2

/-- What an instruction costs in BASE at the decided tables. -/
theorem State.cost_base {s : State} (h : DecidedTicks s.cfg) (hm : s.cfg.mode = .base) {i : Instr} {c : Nat × Nat}
    (hc : DecidedBaseCell i.opcode c) (taken : Bool) : s.cost i taken = pickCost taken c := by
  simp only [State.cost, tickEntry_base h hm, hc, pickCost]

/-- What an instruction costs in EXT at the decided tables. -/
theorem State.cost_ext {s : State} (h : DecidedTicks s.cfg) (hm : s.cfg.mode = .ext) {i : Instr} {c : Nat × Nat}
    (hc : DecidedExtCell i.opcode c) (taken : Bool) : s.cost i taken = pickCost taken c := by
  simp only [State.cost, tickEntry_ext h hm hc.1, hc.2, pickCost]

/-- What an instruction of both modes costs at the decided tables. -/
theorem State.cost_decided {s : State} (h : DecidedTicks s.cfg) {i : Instr} {base ext : Nat × Nat}
    (hc : DecidedCells i.opcode base ext) (taken : Bool) :
    s.cost i taken = if s.cfg.mode = .base then pickCost taken base else pickCost taken ext := by
  cases hm : s.cfg.mode with
  | base => exact State.cost_base h hm hc.1 taken
  | ext => exact State.cost_ext h hm hc.2 taken

/-! ## Ends of instructions -/

section Ends

variable {s t : State} {i : Instr}

/-- A sequential instruction of both modes ends after its length, whatever registers and memory it wrote. -/
theorem endsAt_advance {base ext : Nat × Nat} (hc : DecidedCells i.opcode base ext) (hpc : t.pc = s.pc)
    (ht : t.ticks = s.ticks) (hcfg : t.cfg = s.cfg) (len : Word) :
    EndsAt s (t.advance i len) (s.pc + len) base.1 ext.1 :=
  ⟨congrArg (· + len) hpc,
    fun h => by rw [State.advance_ticks, State.cost_of_cfg hcfg, ht, State.cost_decided h hc]; rfl⟩

/-- A conditional transfer of both modes that is not taken ends after its length. -/
theorem endsAt_fallThrough {base ext : Nat × Nat} (hc : DecidedCells i.opcode base ext) (hpc : t.pc = s.pc)
    (ht : t.ticks = s.ticks) (hcfg : t.cfg = s.cfg) (len : Word) :
    EndsAt s (t.fallThrough i len) (s.pc + len) base.2 ext.2 :=
  ⟨congrArg (· + len) hpc,
    fun h => by rw [State.fallThrough_ticks, State.cost_of_cfg hcfg, ht, State.cost_decided h hc]; rfl⟩

/-- A transfer of both modes ends at its target. -/
theorem endsAt_jumpTo {base ext : Nat × Nat} (hc : DecidedCells i.opcode base ext) (ht : t.ticks = s.ticks)
    (hcfg : t.cfg = s.cfg) (target : Word) : EndsAt s (t.jumpTo i target) target base.1 ext.1 :=
  ⟨rfl, fun h => by rw [State.jumpTo_ticks, State.cost_of_cfg hcfg, ht, State.cost_decided h hc]; rfl⟩

/-- In BASE a sequential instruction of BASE alone ends after its length. -/
theorem endsAt_advance_base {base : Nat × Nat} (hc : DecidedBaseCell i.opcode base) (hm : s.cfg.mode = .base)
    (hpc : t.pc = s.pc) (ht : t.ticks = s.ticks) (hcfg : t.cfg = s.cfg) (len : Word) (ext : Nat) :
    EndsAt s (t.advance i len) (s.pc + len) base.1 ext :=
  ⟨congrArg (· + len) hpc,
    fun h => by rw [State.advance_ticks, State.cost_of_cfg hcfg, ht, State.cost_base h hm hc, if_pos hm]; rfl⟩

/-- In BASE a transfer of BASE alone ends at its target. -/
theorem endsAt_jumpTo_base {base : Nat × Nat} (hc : DecidedBaseCell i.opcode base) (hm : s.cfg.mode = .base)
    (ht : t.ticks = s.ticks) (hcfg : t.cfg = s.cfg) (target : Word) (ext : Nat) :
    EndsAt s (t.jumpTo i target) target base.1 ext :=
  ⟨rfl, fun h => by rw [State.jumpTo_ticks, State.cost_of_cfg hcfg, ht, State.cost_base h hm hc, if_pos hm]; rfl⟩

/-- In EXT a sequential instruction of EXT alone ends after its length. -/
theorem endsAt_advance_ext {ext : Nat × Nat} (hc : DecidedExtCell i.opcode ext) (hm : s.cfg.mode = .ext)
    (hpc : t.pc = s.pc) (ht : t.ticks = s.ticks) (hcfg : t.cfg = s.cfg) (len : Word) (base : Nat) :
    EndsAt s (t.advance i len) (s.pc + len) base ext.1 :=
  ⟨congrArg (· + len) hpc, fun h => by
    rw [State.advance_ticks, State.cost_of_cfg hcfg, ht, State.cost_ext h hm hc, if_neg (hm ▸ by decide)]; rfl⟩

end Ends

end Sys2Proof.Machine
end

