-- ==== Sys2Proof/Tests/Slice0.lean ====
section
/-! SUPPORT. The model's own tests: ill-formed terms, the decoding of every constructor, the worked vectors of
95_test_vectors.md one step at a time, and a witness for the hypotheses of every statement that has some. -/

open Sys2Proof Sys2Proof.Machine

namespace Sys2Proof.Tests

/-! ## Helpers: the start state of 95_test_vectors.md -/

/-- The decided parameters, with no control word. -/
def testParams (m : Mode) : Params := { resetParams with mode := m, ppiControl := [] }

/-- The start state of the vectors, with the instruction's bytes placed at PC. -/
def start (m : Mode) (pc : Word) (bs : List Byte) : State :=
  State.construct (testParams m) pc { resetRegs with sp := 0x9000 }
    ((List.range bs.length).map fun k => (pc.toNat + k, bs.getD k 0))

/-- The state with more bytes written past the bus policy. -/
def poke (s : State) (cells : List (Word × Byte)) : State := cells.foldl (fun u c => u.hostWriteMem c.1 c.2) s

def noFlags : Flags := resetRegs.flags

def noAlt : AltBank := resetRegs.alt

/-- The state after one step. -/
def after (s : State) : State :=
  match step s with
  | .next t => t
  | _ => s

/-- The packed flag byte. -/
def packed (s : State) : Byte := packFlags s.cfg.mode s.flags

/-- The sample PPI_CONTROL of V124 and a window policy. -/
def windowParams (m : Mode) (x : WindowDataWrite) : Params :=
  { resetParams with mode := m, windowDataWrite := x, ppiControl := [(0x9B, ⟨0x11, 0x22, 0x33, 0x9B⟩)] }

/-- What the decoder gives for a whole byte sequence. -/
def whole (m : Mode) (bs : List Byte) : Option Instr :=
  match decode m bs with
  | .ok (i, []) => some i
  | _ => none

/-! ## WellFormed refuses ill-formed terms -/

/-- The constructors of EXT alone are no instructions of BASE (R57). -/
theorem test_wf_ext_only :
    [Instr.exAfAf, .exx, .djnz 0, .jr 0, .jrCc .z 0, .prefixCB, .prefixDD, .prefixED, .prefixFD].map (Instr.wf .base)
      = List.replicate 9 false := by decide

/-- The duplicates are no instructions of EXT (R59). -/
theorem test_wf_base_only :
    [Instr.nopAlias 1, .jmpAlias 0, .retAlias, .callAlias 1 0].map (Instr.wf .ext) = List.replicate 4 false := by decide

/-- Duplicate number 0 would be NOP itself (0x00). -/
theorem test_wf_nopAlias_zero : (Instr.nopAlias 0).wf .base = false := by decide

/-- Duplicate number 0 would be CALL itself (0xCD). -/
theorem test_wf_callAlias_zero : (Instr.callAlias 0 0x1234).wf .base = false := by decide

/-! ## Decoding -/

/-- Every constructor of 42_data_transfer.md from a word written out from R52. -/
theorem test_decode_transfer :
    [[0b01010001], [0b01111110], [0b01110011], [0b00001110, 0x5A], [0b00110110, 0x5A], [0b00010001, 0x34, 0x12]].map
      (whole .base) = [some (.movRR .d .c), some (.movRM .a), some (.movMR .e), some (.mviR .c 0x5A),
        some (.mviM 0x5A), some (.lxi .de 0x1234)]
    ∧ [[0b00111010, 0x34, 0x12], [0b00110010, 0x34, 0x12], [0b00101010, 0x34, 0x12], [0b00100010, 0x34, 0x12],
      [0b00011010], [0b00000010], [0b11101011]].map (whole .ext) = [some (.lda 0x1234), some (.sta 0x1234),
        some (.lhld 0x1234), some (.shld 0x1234), some (.ldax .de), some (.stax .bc), some .xchg] := by decide

/-- Every constructor of 43_arithmetic.md from a word written out from R52. -/
theorem test_decode_arithmetic :
    [[0b10000001], [0b10000110], [0b11000110, 7], [0b10001010], [0b10001110], [0b11001110, 7], [0b10010011],
      [0b10010110], [0b11010110, 7], [0b10011100], [0b10011110], [0b11011110, 7]].map (whole .ext)
      = [some (.addR .c), some .addM, some (.adi 7), some (.adcR .d), some .adcM, some (.aci 7), some (.subR .e),
        some .subM, some (.sui 7), some (.sbbR .h), some .sbbM, some (.sbi 7)]
    ∧ [[0b00101100], [0b00110100], [0b00111101], [0b00110101], [0b00110011], [0b00001011], [0b00101001],
      [0b00100111]].map (whole .base) = [some (.inrR .l), some .inrM, some (.dcrR .a), some .dcrM, some (.inx .sp),
        some (.dcx .bc), some (.dad .hl), some .daa] := by decide

/-- Every constructor of 44_logical_rotate.md from a word written out from R52. -/
theorem test_decode_logic :
    [[0b10100000], [0b10100110], [0b11100110, 7], [0b10101001], [0b10101110], [0b11101110, 7], [0b10110010],
      [0b10110110], [0b11110110, 7], [0b10111111], [0b10111110], [0b11111110, 7]].map (whole .base)
      = [some (.anaR .b), some .anaM, some (.ani 7), some (.xraR .c), some .xraM, some (.xri 7), some (.oraR .d),
        some .oraM, some (.ori 7), some (.cmpR .a), some .cmpM, some (.cpi 7)]
    ∧ [[0b00000111], [0b00001111], [0b00010111], [0b00011111], [0b00101111], [0b00111111], [0b00110111]].map
      (whole .ext) = [some .rlc, some .rrc, some .ral, some .rar, some .cma, some .cmc, some .stc] := by decide

/-- Every constructor of 45_branch.md from a word written out from R52 and R59. -/
theorem test_decode_branch :
    [[0b11000011, 0x34, 0x12], [0b11001011, 0x34, 0x12], [0b11101010, 0x34, 0x12], [0b11001101, 0x34, 0x12],
      [0b11101101, 0x34, 0x12], [0b11110100, 0x34, 0x12]].map (whole .base) = [some (.jmp 0x1234),
        some (.jmpAlias 0x1234), some (.jcc .pe 0x1234), some (.call 0x1234), some (.callAlias 2 0x1234),
        some (.ccc .p 0x1234)]
    ∧ [[0b11001001], [0b11011001], [0b11010000], [0b11110111], [0b11101001]].map (whole .base)
      = [some .ret, some .retAlias, some (.rcc .nc), some (.rst 6), some .pchl] := by decide

/-- Every constructor of 46_stack_io_control.md from a word written out from R52 and R59. -/
theorem test_decode_stack_io :
    [[0b11100101], [0b11110101], [0b11000001], [0b11110001], [0b11100011], [0b11111001], [0b11011011, 0x10],
      [0b11010011, 0x10]].map (whole .ext) = [some (.push .hl), some .pushPsw, some (.pop .bc), some .popPsw,
        some .xthl, some .sphl, some (.inPort 0x10), some (.outPort 0x10)]
    ∧ [[0b11111011], [0b11110011], [0b01110110], [0b00000000], [0b00101000]].map (whole .base)
      = [some .ei, some .di, some .hlt, some .nop, some (.nopAlias 5)] := by decide

/-- Every constructor of 47_extended_mode.md from a word written out from R52 and R58. -/
theorem test_decode_extended :
    [[0b00001000], [0b11011001], [0b00010000, 0xFE], [0b00011000, 0x80], [0b00100000, 0x7F], [0b00110000, 0x7F],
      [0b11001011], [0b11011101], [0b11101101], [0b11111101]].map (whole .ext) = [some .exAfAf, some .exx,
        some (.djnz 0xFE), some (.jr 0x80), some (.jrCc .nz 0x7F), some (.jrCc .nc 0x7F), some .prefixCB,
        some .prefixDD, some .prefixED, some .prefixFD] := by decide

/-- The row of spec/opcode_table.json, counted from 0, that holds each opcode in BASE. -/
def baseRows : List Nat :=
  [74, 5, 11, 29, 25, 27, 3, 45, 75, 31, 10, 30, 25, 27, 3, 46] ++
  [75, 5, 11, 29, 25, 27, 3, 47, 75, 31, 10, 30, 25, 27, 3, 48] ++
  [75, 5, 9, 29, 25, 27, 3, 32, 75, 31, 8, 30, 25, 27, 3, 49] ++
  [75, 5, 7, 29, 26, 28, 4, 51, 75, 31, 6, 30, 25, 27, 3, 50] ++
  [0, 0, 0, 0, 0, 0, 1, 0, 0, 0, 0, 0, 0, 0, 1, 0] ++
  [0, 0, 0, 0, 0, 0, 1, 0, 0, 0, 0, 0, 0, 0, 1, 0] ++
  [0, 0, 0, 0, 0, 0, 1, 0, 0, 0, 0, 0, 0, 0, 1, 0] ++
  [2, 2, 2, 2, 2, 2, 73, 2, 0, 0, 0, 0, 0, 0, 1, 0] ++
  [13, 13, 13, 13, 13, 13, 14, 13, 16, 16, 16, 16, 16, 16, 17, 16] ++
  [19, 19, 19, 19, 19, 19, 20, 19, 22, 22, 22, 22, 22, 22, 23, 22] ++
  [33, 33, 33, 33, 33, 33, 34, 33, 36, 36, 36, 36, 36, 36, 37, 36] ++
  [39, 39, 39, 39, 39, 39, 40, 39, 42, 42, 42, 42, 42, 42, 43, 42] ++
  [60, 65, 54, 52, 57, 63, 15, 61, 60, 58, 54, 53, 57, 55, 18, 61] ++
  [60, 65, 54, 70, 57, 63, 21, 61, 60, 59, 54, 69, 57, 56, 24, 61] ++
  [60, 65, 54, 67, 57, 63, 35, 61, 60, 62, 54, 12, 57, 56, 38, 61] ++
  [60, 66, 54, 72, 57, 64, 41, 61, 60, 68, 54, 71, 57, 56, 44, 61]

/-- The row of spec/opcode_table.json, counted from 0, that holds each opcode in EXT. -/
def extRows : List Nat :=
  [74, 5, 11, 29, 25, 27, 3, 45, 76, 31, 10, 30, 25, 27, 3, 46] ++
  [78, 5, 11, 29, 25, 27, 3, 47, 79, 31, 10, 30, 25, 27, 3, 48] ++
  [80, 5, 9, 29, 25, 27, 3, 32, 80, 31, 8, 30, 25, 27, 3, 49] ++
  [80, 5, 7, 29, 26, 28, 4, 51, 80, 31, 6, 30, 25, 27, 3, 50] ++
  [0, 0, 0, 0, 0, 0, 1, 0, 0, 0, 0, 0, 0, 0, 1, 0] ++
  [0, 0, 0, 0, 0, 0, 1, 0, 0, 0, 0, 0, 0, 0, 1, 0] ++
  [0, 0, 0, 0, 0, 0, 1, 0, 0, 0, 0, 0, 0, 0, 1, 0] ++
  [2, 2, 2, 2, 2, 2, 73, 2, 0, 0, 0, 0, 0, 0, 1, 0] ++
  [13, 13, 13, 13, 13, 13, 14, 13, 16, 16, 16, 16, 16, 16, 17, 16] ++
  [19, 19, 19, 19, 19, 19, 20, 19, 22, 22, 22, 22, 22, 22, 23, 22] ++
  [33, 33, 33, 33, 33, 33, 34, 33, 36, 36, 36, 36, 36, 36, 37, 36] ++
  [39, 39, 39, 39, 39, 39, 40, 39, 42, 42, 42, 42, 42, 42, 43, 42] ++
  [60, 65, 54, 52, 57, 63, 15, 61, 60, 58, 54, 81, 57, 55, 18, 61] ++
  [60, 65, 54, 70, 57, 63, 21, 61, 60, 77, 54, 69, 57, 82, 24, 61] ++
  [60, 65, 54, 67, 57, 63, 35, 61, 60, 62, 54, 12, 57, 83, 38, 61] ++
  [60, 66, 54, 72, 57, 64, 41, 61, 60, 68, 54, 71, 57, 84, 44, 61]

/-- Each opcode decodes to its row of the table, in both modes (R57, R58; opcode_table.json). -/
theorem test_decode_rows :
    (List.range 256).map (fun k => (decodeOpcode .base (BitVec.ofNat 8 k) 0 0).ctorIdx) = baseRows
    ∧ (List.range 256).map (fun k => (decodeOpcode .ext (BitVec.ofNat 8 k) 0 0).ctorIdx) = extRows := by
  decide +kernel

/-- A sequence that ends too early is no instruction, by name. -/
theorem test_decode_errors :
    decode .base [] = .error .noOpcode ∧ decode .base [0xCB, 0x00] = .error .operandsMissing
    ∧ decode .ext [0x10] = .error .operandsMissing ∧ decode .ext [0xCB] = .ok (.prefixCB, []) := ⟨rfl, rfl, rfl, rfl⟩

/-- The host's reading of a table word: the first byte is the opcode, and the operand bytes above it are 0. -/
theorem test_decodeTableWord :
    decodeTableWord 24 0x123421 = some (.lxi .hl 0x1234) ∧ decodeTableWord 8 0xC3 = some (.jmp 0)
    ∧ decodeTableWord 8 0xDD = some .prefixDD := by decide

/-- The word placed by withFetchWord is the next instruction (RST 2 goes to 0x0010). -/
theorem test_withFetchWord : (after (State.reset.withFetchWord 8 0xD7)).pc = 0x0010 := by decide

/-! ## The vectors of 95_test_vectors.md -/

/-- V1: MOV A,B (42_data_transfer.md rule R100). -/
theorem test_movRR_v1 :
    (let t := after { start .base 0x8000 [0x78] with b := 0x12 };
      (t.a, packed t, t.pc, t.ticks) = (0x12, 0x02, 0x8001, 5))
    ∧ (let t := after { start .ext 0x8000 [0x78] with b := 0x12 };
      (t.a, packed t, t.pc, t.ticks) = (0x12, 0x00, 0x8001, 4)) := by decide

/-- V2: MOV C,C is a no-op move (42_data_transfer.md rule R100). -/
theorem test_movRR_v2 :
    (let t := after { start .base 0x8000 [0x49] with c := 0x77 };
      (packed t, t.pc, t.ticks) = (0x02, 0x8001, 5))
    ∧ (let t := after { start .ext 0x8000 [0x49] with c := 0x77 };
      (packed t, t.pc, t.ticks) = (0x00, 0x8001, 4)) := by decide

/-- V3: MOV A,M (42_data_transfer.md rule R101). -/
theorem test_movRM_v3 :
    (let t := after { poke (start .base 0x8000 [0x7E]) [(0x8100, 0x5A)] with h := 0x81, l := 0x00 };
      (t.a, packed t, t.pc, t.ticks) = (0x5A, 0x02, 0x8001, 7))
    ∧ (let t := after { poke (start .ext 0x8000 [0x7E]) [(0x8100, 0x5A)] with h := 0x81, l := 0x00 };
      (t.a, packed t, t.pc, t.ticks) = (0x5A, 0x00, 0x8001, 7)) := by decide

/-- V4: MOV M,A, RAM (42_data_transfer.md rule R102); V5: MOV M,A into ROM area: discarded (42_data_transfer.md
rule R102, 20_memory.md rule R32). -/
theorem test_movMR_v4 :
    (let t := after { start .base 0x8000 [0x77] with a := 0x33, h := 0x81, l := 0x00 };
      (t.memRead 0x8100, packed t, t.pc, t.ticks) = (0x33, 0x02, 0x8001, 7))
    ∧ (let t := after { start .ext 0x8000 [0x77] with a := 0x33, h := 0x81, l := 0x00 };
      (t.memRead 0x8100, packed t, t.pc, t.ticks) = (0x33, 0x00, 0x8001, 7))
    ∧ (let t := after { start .base 0x8000 [0x77] with a := 0x33, h := 0xC1, l := 0x23 };
      (t.memRead 0xC123, packed t, t.pc, t.ticks) = (0x00, 0x02, 0x8001, 7)) := by decide

/-- V6: MOV M,H: stores the old H (42_data_transfer.md rule R102). -/
theorem test_movMR_v6 :
    (let t := after { start .base 0x8000 [0x74] with h := 0x81, l := 0x55 };
      (t.memRead 0x8155, packed t, t.pc, t.ticks) = (0x81, 0x02, 0x8001, 7)) := by decide

/-- V7: MVI B,0xFF (42_data_transfer.md rule R103). -/
theorem test_mviR_v7 :
    (let t := after (start .base 0x8000 [0x06, 0xFF]);
      (t.b, packed t, t.pc, t.ticks) = (0xFF, 0x02, 0x8002, 7))
    ∧ (let t := after (start .ext 0x8000 [0x06, 0xFF]);
      (t.b, packed t, t.pc, t.ticks) = (0xFF, 0x00, 0x8002, 7)) := by decide

/-- V8: MVI M,d8 (42_data_transfer.md rule R104). -/
theorem test_mviM_v8 :
    (let t := after { start .base 0x8000 [0x36, 0xAA] with h := 0x90, l := 0x00 };
      (t.memRead 0x9000, packed t, t.pc, t.ticks) = (0xAA, 0x02, 0x8002, 10))
    ∧ (let t := after { start .ext 0x8000 [0x36, 0xAA] with h := 0x90, l := 0x00 };
      (t.memRead 0x9000, packed t, t.pc, t.ticks) = (0xAA, 0x00, 0x8002, 10)) := by decide

/-- V9: LXI SP (42_data_transfer.md rule R105). -/
theorem test_lxi_v9 :
    (let t := after (start .base 0x8000 [0x31, 0xFE, 0xFF]);
      (t.sp, packed t, t.pc, t.ticks) = (0xFFFE, 0x02, 0x8003, 10))
    ∧ (let t := after (start .ext 0x8000 [0x31, 0xFE, 0xFF]);
      (t.sp, packed t, t.pc, t.ticks) = (0xFFFE, 0x00, 0x8003, 10)) := by decide

/-- V10: LXI H (42_data_transfer.md rule R105). -/
theorem test_lxi_v10 :
    (let t := after (start .base 0x8000 [0x21, 0x34, 0x12]);
      (t.h, t.l, packed t, t.pc, t.ticks) = (0x12, 0x34, 0x02, 0x8003, 10))
    ∧ (let t := after (start .ext 0x8000 [0x21, 0x34, 0x12]);
      (t.h, t.l, packed t, t.pc, t.ticks) = (0x12, 0x34, 0x00, 0x8003, 10)) := by decide

/-- V11: LDA 0xFFFF (42_data_transfer.md rule R106). -/
theorem test_lda_v11 :
    (let t := after (poke (start .base 0x8000 [0x3A, 0xFF, 0xFF]) [(0xFFFF, 0x9C)]);
      (t.a, packed t, t.pc, t.ticks) = (0x9C, 0x02, 0x8003, 13))
    ∧ (let t := after (poke (start .ext 0x8000 [0x3A, 0xFF, 0xFF]) [(0xFFFF, 0x9C)]);
      (t.a, packed t, t.pc, t.ticks) = (0x9C, 0x00, 0x8003, 13)) := by decide

/-- V12: STA into ROM: discarded (42_data_transfer.md rule R107). -/
theorem test_sta_v12 :
    (let t := after { start .base 0x8000 [0x32, 0x00, 0xC0] with a := 0x42 };
      (packed t, t.pc, t.ticks) = (0x02, 0x8003, 13))
    ∧ (let t := after { start .ext 0x8000 [0x32, 0x00, 0xC0] with a := 0x42 };
      (packed t, t.pc, t.ticks) = (0x00, 0x8003, 13)) := by decide

/-- V13: LHLD 0xFFFF wraps: H from 0x0000 (42_data_transfer.md rule R108, 20_memory.md rule R39). -/
theorem test_lhld_v13 :
    (let t := after (poke (start .base 0x8000 [0x2A, 0xFF, 0xFF]) [(0xFFFF, 0x34), (0x0000, 0x12)]);
      (t.h, t.l, packed t, t.pc, t.ticks) = (0x12, 0x34, 0x02, 0x8003, 16))
    ∧ (let t := after (poke (start .ext 0x8000 [0x2A, 0xFF, 0xFF]) [(0xFFFF, 0x34), (0x0000, 0x12)]);
      (t.h, t.l, packed t, t.pc, t.ticks) = (0x12, 0x34, 0x00, 0x8003, 16)) := by decide

/-- V14: SHLD 0xBFFF: low byte applied, high byte at 0xC000 discarded (42_data_transfer.md rule R109). -/
theorem test_shld_v14 :
    (let t := after { start .base 0x8000 [0x22, 0xFF, 0xBF] with h := 0x12, l := 0x34 };
      (t.memRead 0xBFFF, packed t, t.pc, t.ticks) = (0x34, 0x02, 0x8003, 16))
    ∧ (let t := after { start .ext 0x8000 [0x22, 0xFF, 0xBF] with h := 0x12, l := 0x34 };
      (t.memRead 0xBFFF, packed t, t.pc, t.ticks) = (0x34, 0x00, 0x8003, 16)) := by decide

/-- V15: LDAX B (42_data_transfer.md rule R110). -/
theorem test_ldax_v15 :
    (let t := after { poke (start .base 0x8000 [0x0A]) [(0x8200, 0x07)] with b := 0x82, c := 0x00 };
      (t.a, packed t, t.pc, t.ticks) = (0x07, 0x02, 0x8001, 7))
    ∧ (let t := after { poke (start .ext 0x8000 [0x0A]) [(0x8200, 0x07)] with b := 0x82, c := 0x00 };
      (t.a, packed t, t.pc, t.ticks) = (0x07, 0x00, 0x8001, 7)) := by decide

/-- V16: STAX D (42_data_transfer.md rule R111). -/
theorem test_stax_v16 :
    (let t := after { start .base 0x8000 [0x12] with a := 0x99, d := 0x82, e := 0x01 };
      (t.memRead 0x8201, packed t, t.pc, t.ticks) = (0x99, 0x02, 0x8001, 7))
    ∧ (let t := after { start .ext 0x8000 [0x12] with a := 0x99, d := 0x82, e := 0x01 };
      (t.memRead 0x8201, packed t, t.pc, t.ticks) = (0x99, 0x00, 0x8001, 7)) := by decide

/-- V17: XCHG (42_data_transfer.md rule R112). -/
theorem test_xchg_v17 :
    (let t := after { start .base 0x8000 [0xEB] with d := 0x11, e := 0x11, h := 0x22, l := 0x22 };
      (t.d, t.e, t.h, t.l, packed t, t.pc) = (0x22, 0x22, 0x11, 0x11, 0x02, 0x8001) ∧ t.ticks = 4)
    ∧ (let t := after { start .ext 0x8000 [0xEB] with d := 0x11, e := 0x11, h := 0x22, l := 0x22 };
      (t.d, t.e, t.h, t.l, packed t, t.pc) = (0x22, 0x22, 0x11, 0x11, 0x00, 0x8001) ∧ t.ticks = 4) := by decide

/-- V18: ADD B: half-carry (43_arithmetic.md rule R113). -/
theorem test_addR_v18 :
    (let t := after { start .base 0x8000 [0x80] with a := 0x0F, b := 0x01 };
      (t.a, packed t, t.pc, t.ticks) = (0x10, 0x12, 0x8001, 4))
    ∧ (let t := after { start .ext 0x8000 [0x80] with a := 0x0F, b := 0x01 };
      (t.a, packed t, t.pc, t.ticks) = (0x10, 0x10, 0x8001, 4)) := by decide

/-- V19: ADD A with A=0 (the source's add(0,0), S4). -/
theorem test_addR_v19 :
    (let t := after (start .base 0x8000 [0x87]);
      (packed t, t.pc, t.ticks) = (0x46, 0x8001, 4))
    ∧ (let t := after (start .ext 0x8000 [0x87]);
      (packed t, t.pc, t.ticks) = (0x40, 0x8001, 4)) := by decide

/-- V20: ADD M: 0x80+0x80 (43_arithmetic.md rule R114). -/
theorem test_addM_v20 :
    (let t := after { poke (start .base 0x8000 [0x86]) [(0x8100, 0x80)] with a := 0x80, h := 0x81, l := 0x00 };
      (t.a, packed t, t.pc, t.ticks) = (0x00, 0x47, 0x8001, 7))
    ∧ (let t := after { poke (start .ext 0x8000 [0x86]) [(0x8100, 0x80)] with a := 0x80, h := 0x81, l := 0x00 };
      (t.a, packed t, t.pc, t.ticks) = (0x00, 0x45, 0x8001, 7)) := by decide

/-- V21: ADI: 0x7F+1, signed overflow (43_arithmetic.md rule R115). -/
theorem test_adi_v21 :
    (let t := after { start .base 0x8000 [0xC6, 0x01] with a := 0x7F };
      (t.a, packed t, t.pc, t.ticks) = (0x80, 0x92, 0x8002, 7))
    ∧ (let t := after { start .ext 0x8000 [0xC6, 0x01] with a := 0x7F };
      (t.a, packed t, t.pc, t.ticks) = (0x80, 0x94, 0x8002, 7)) := by decide

/-- V22: ADI: 0x01+0xFF, carry and half-carry (43_arithmetic.md rule R115). -/
theorem test_adi_v22 :
    (let t := after { start .base 0x8000 [0xC6, 0xFF] with a := 0x01 };
      (t.a, packed t, t.pc, t.ticks) = (0x00, 0x57, 0x8002, 7))
    ∧ (let t := after { start .ext 0x8000 [0xC6, 0xFF] with a := 0x01 };
      (t.a, packed t, t.pc, t.ticks) = (0x00, 0x51, 0x8002, 7)) := by decide

/-- V23: ADC C with carry-in (43_arithmetic.md rule R116). -/
theorem test_adcR_v23 :
    (let t := after { start .base 0x8000 [0x89] with a := 0x01, c := 0x01, flags := { noFlags with fC := true } };
      (t.a, packed t, t.pc, t.ticks) = (0x03, 0x06, 0x8001, 4))
    ∧ (let t := after { start .ext 0x8000 [0x89] with a := 0x01, c := 0x01, flags := { noFlags with fC := true } };
      (t.a, packed t, t.pc, t.ticks) = (0x03, 0x00, 0x8001, 4)) := by decide

/-- V24: ADC M: 0xFE+1+1 (43_arithmetic.md rule R117). -/
theorem test_adcM_v24 :
    (let t := after { poke (start .base 0x8000 [0x8E]) [(0x8100, 0x01)] with
        a := 0xFE, h := 0x81, l := 0x00, flags := { noFlags with fC := true } };
      (t.a, packed t, t.pc, t.ticks) = (0x00, 0x57, 0x8001, 7))
    ∧ (let t := after { poke (start .ext 0x8000 [0x8E]) [(0x8100, 0x01)] with
        a := 0xFE, h := 0x81, l := 0x00, flags := { noFlags with fC := true } };
      (t.a, packed t, t.pc, t.ticks) = (0x00, 0x51, 0x8001, 7)) := by decide

/-- V25: ACI: carry-in makes the half-carry (43_arithmetic.md rule R118). -/
theorem test_aci_v25 :
    (let t := after { start .base 0x8000 [0xCE, 0x0F] with a := 0x00, flags := { noFlags with fC := true } };
      (t.a, packed t, t.pc, t.ticks) = (0x10, 0x12, 0x8002, 7))
    ∧ (let t := after { start .ext 0x8000 [0xCE, 0x0F] with a := 0x00, flags := { noFlags with fC := true } };
      (t.a, packed t, t.pc, t.ticks) = (0x10, 0x10, 0x8002, 7)) := by decide

/-- V26: SUB B: half-borrow (43_arithmetic.md rule R119). -/
theorem test_subR_v26 :
    (let t := after { start .base 0x8000 [0x90] with a := 0x10, b := 0x01 };
      (t.a, packed t, t.pc, t.ticks) = (0x0F, 0x06, 0x8001, 4))
    ∧ (let t := after { start .ext 0x8000 [0x90] with a := 0x10, b := 0x01 };
      (t.a, packed t, t.pc, t.ticks) = (0x0F, 0x1A, 0x8001, 4)) := by decide

/-- V27: SUB A clears A; carry clear (43_arithmetic.md rule R119). -/
theorem test_subR_v27 :
    (let t := after { start .base 0x8000 [0x97] with a := 0x3C, flags := { noFlags with fC := true } };
      (t.a, packed t, t.pc, t.ticks) = (0x00, 0x56, 0x8001, 4))
    ∧ (let t := after { start .ext 0x8000 [0x97] with a := 0x3C, flags := { noFlags with fC := true } };
      (t.a, packed t, t.pc, t.ticks) = (0x00, 0x42, 0x8001, 4)) := by decide

/-- V28: SUB M: borrow (43_arithmetic.md rule R120). -/
theorem test_subM_v28 :
    (let t := after { poke (start .base 0x8000 [0x96]) [(0x8100, 0x01)] with a := 0x00, h := 0x81, l := 0x00 };
      (t.a, packed t, t.pc, t.ticks) = (0xFF, 0x87, 0x8001, 7))
    ∧ (let t := after { poke (start .ext 0x8000 [0x96]) [(0x8100, 0x01)] with a := 0x00, h := 0x81, l := 0x00 };
      (t.a, packed t, t.pc, t.ticks) = (0xFF, 0xBB, 0x8001, 7)) := by decide

/-- V29: SUI: 0x80-1, signed overflow (43_arithmetic.md rule R121). -/
theorem test_sui_v29 :
    (let t := after { start .base 0x8000 [0xD6, 0x01] with a := 0x80 };
      (t.a, packed t, t.pc, t.ticks) = (0x7F, 0x02, 0x8002, 7))
    ∧ (let t := after { start .ext 0x8000 [0xD6, 0x01] with a := 0x80 };
      (t.a, packed t, t.pc, t.ticks) = (0x7F, 0x3E, 0x8002, 7)) := by decide

/-- V30: SBB D with borrow-in (43_arithmetic.md rule R122). -/
theorem test_sbbR_v30 :
    (let t := after { start .base 0x8000 [0x9A] with a := 0x05, d := 0x05, flags := { noFlags with fC := true } };
      (t.a, packed t, t.pc, t.ticks) = (0xFF, 0x87, 0x8001, 4))
    ∧ (let t := after { start .ext 0x8000 [0x9A] with a := 0x05, d := 0x05, flags := { noFlags with fC := true } };
      (t.a, packed t, t.pc, t.ticks) = (0xFF, 0xBB, 0x8001, 4)) := by decide

/-- V31: SBB M (43_arithmetic.md rule R123). -/
theorem test_sbbM_v31 :
    (let t := after { poke (start .base 0x8000 [0x9E]) [(0x8100, 0x0F)] with
        a := 0x10, h := 0x81, l := 0x00, flags := { noFlags with fC := true } };
      (t.a, packed t, t.pc, t.ticks) = (0x00, 0x46, 0x8001, 7))
    ∧ (let t := after { poke (start .ext 0x8000 [0x9E]) [(0x8100, 0x0F)] with
        a := 0x10, h := 0x81, l := 0x00, flags := { noFlags with fC := true } };
      (t.a, packed t, t.pc, t.ticks) = (0x00, 0x52, 0x8001, 7)) := by decide

/-- V32: SBI 0 with borrow (43_arithmetic.md rule R124). -/
theorem test_sbi_v32 :
    (let t := after { start .base 0x8000 [0xDE, 0x00] with a := 0x00, flags := { noFlags with fC := true } };
      (t.a, packed t, t.pc, t.ticks) = (0xFF, 0x87, 0x8002, 7))
    ∧ (let t := after { start .ext 0x8000 [0xDE, 0x00] with a := 0x00, flags := { noFlags with fC := true } };
      (t.a, packed t, t.pc, t.ticks) = (0xFF, 0xBB, 0x8002, 7)) := by decide

/-- V33: INR A, 0x7F: overflow in EXT; carry kept (43_arithmetic.md rule R125). -/
theorem test_inrR_v33 :
    (let t := after { start .base 0x8000 [0x3C] with a := 0x7F, flags := { noFlags with fC := true } };
      (t.a, packed t, t.pc, t.ticks) = (0x80, 0x93, 0x8001, 5))
    ∧ (let t := after { start .ext 0x8000 [0x3C] with a := 0x7F, flags := { noFlags with fC := true } };
      (t.a, packed t, t.pc, t.ticks) = (0x80, 0x95, 0x8001, 4)) := by decide

/-- V34: INR B, 0xFF wraps to 0 (43_arithmetic.md rule R125). -/
theorem test_inrR_v34 :
    (let t := after { start .base 0x8000 [0x04] with b := 0xFF };
      (t.b, packed t, t.pc, t.ticks) = (0x00, 0x56, 0x8001, 5))
    ∧ (let t := after { start .ext 0x8000 [0x04] with b := 0xFF };
      (t.b, packed t, t.pc, t.ticks) = (0x00, 0x50, 0x8001, 4)) := by decide

/-- V35: INR M (43_arithmetic.md rule R126). -/
theorem test_inrM_v35 :
    (let t := after { poke (start .base 0x8000 [0x34]) [(0x8100, 0x0F)] with h := 0x81, l := 0x00 };
      (t.memRead 0x8100, packed t, t.pc, t.ticks) = (0x10, 0x12, 0x8001, 10))
    ∧ (let t := after { poke (start .ext 0x8000 [0x34]) [(0x8100, 0x0F)] with h := 0x81, l := 0x00 };
      (t.memRead 0x8100, packed t, t.pc, t.ticks) = (0x10, 0x10, 0x8001, 11)) := by decide

/-- V36: DCR B, 0x10 (43_arithmetic.md rule R127); V37: DCR C, 0x00 wraps to 0xFF (43_arithmetic.md rule R127). -/
theorem test_dcrR_v36 :
    (let t := after { start .base 0x8000 [0x05] with b := 0x10 };
      (t.b, packed t, t.pc, t.ticks) = (0x0F, 0x06, 0x8001, 5))
    ∧ (let t := after { start .ext 0x8000 [0x05] with b := 0x10 };
      (t.b, packed t, t.pc, t.ticks) = (0x0F, 0x1A, 0x8001, 4))
    ∧ (let t := after { start .base 0x8000 [0x0D] with c := 0x00 };
      (t.c, packed t, t.pc, t.ticks) = (0xFF, 0x86, 0x8001, 5))
    ∧ (let t := after { start .ext 0x8000 [0x0D] with c := 0x00 };
      (t.c, packed t, t.pc, t.ticks) = (0xFF, 0xBA, 0x8001, 4)) := by decide

/-- V38: DCR A, 0x80: overflow in EXT (43_arithmetic.md rule R127). -/
theorem test_dcrR_v38 :
    (let t := after { start .base 0x8000 [0x3D] with a := 0x80 };
      (t.a, packed t, t.pc, t.ticks) = (0x7F, 0x02, 0x8001, 5))
    ∧ (let t := after { start .ext 0x8000 [0x3D] with a := 0x80 };
      (t.a, packed t, t.pc, t.ticks) = (0x7F, 0x3E, 0x8001, 4)) := by decide

/-- V39: DCR M to zero (43_arithmetic.md rule R128). -/
theorem test_dcrM_v39 :
    (let t := after { poke (start .base 0x8000 [0x35]) [(0x8100, 0x01)] with h := 0x81, l := 0x00 };
      (t.memRead 0x8100, packed t, t.pc, t.ticks) = (0x00, 0x56, 0x8001, 10))
    ∧ (let t := after { poke (start .ext 0x8000 [0x35]) [(0x8100, 0x01)] with h := 0x81, l := 0x00 };
      (t.memRead 0x8100, packed t, t.pc, t.ticks) = (0x00, 0x42, 0x8001, 11)) := by decide

/-- V40: INX H carries into H (43_arithmetic.md rule R129). -/
theorem test_inx_v40 :
    (let t := after { start .base 0x8000 [0x23] with h := 0x00, l := 0xFF };
      (t.h, t.l, packed t, t.pc, t.ticks) = (0x01, 0x00, 0x02, 0x8001, 5))
    ∧ (let t := after { start .ext 0x8000 [0x23] with h := 0x00, l := 0xFF };
      (t.h, t.l, packed t, t.pc, t.ticks) = (0x01, 0x00, 0x00, 0x8001, 6)) := by decide

/-- V41: INX SP wraps (43_arithmetic.md rule R129). -/
theorem test_inx_v41 :
    (let t := after { start .base 0x8000 [0x33] with sp := 0xFFFF };
      (t.sp, packed t, t.pc, t.ticks) = (0x0000, 0x02, 0x8001, 5))
    ∧ (let t := after { start .ext 0x8000 [0x33] with sp := 0xFFFF };
      (t.sp, packed t, t.pc, t.ticks) = (0x0000, 0x00, 0x8001, 6)) := by decide

/-- V42: DCX SP wraps (43_arithmetic.md rule R130). -/
theorem test_dcx_v42 :
    (let t := after { start .base 0x8000 [0x3B] with sp := 0x0000 };
      (t.sp, packed t, t.pc, t.ticks) = (0xFFFF, 0x02, 0x8001, 5))
    ∧ (let t := after { start .ext 0x8000 [0x3B] with sp := 0x0000 };
      (t.sp, packed t, t.pc, t.ticks) = (0xFFFF, 0x00, 0x8001, 6)) := by decide

/-- V43: DCX B: no flags, even to 0 (43_arithmetic.md rule R130). -/
theorem test_dcx_v43 :
    (let t := after { start .base 0x8000 [0x0B] with b := 0x00, c := 0x01 };
      (t.c, packed t, t.pc, t.ticks) = (0x00, 0x02, 0x8001, 5))
    ∧ (let t := after { start .ext 0x8000 [0x0B] with b := 0x00, c := 0x01 };
      (t.c, packed t, t.pc, t.ticks) = (0x00, 0x00, 0x8001, 6)) := by decide

/-- V44: DAD D carry out of bit 15 (43_arithmetic.md rule R131); V45: DAD B: carry out of bit 11 (EXT fH)
(43_arithmetic.md rule R131). -/
theorem test_dad_v44 :
    (let t := after { start .base 0x8000 [0x19] with h := 0x80, l := 0x00, d := 0x80, e := 0x00 };
      (t.h, packed t, t.pc, t.ticks) = (0x00, 0x03, 0x8001, 10))
    ∧ (let t := after { start .ext 0x8000 [0x19] with h := 0x80, l := 0x00, d := 0x80, e := 0x00 };
      (t.h, packed t, t.pc, t.ticks) = (0x00, 0x01, 0x8001, 11))
    ∧ (let t := after { start .base 0x8000 [0x09] with h := 0x0F, l := 0xFF, b := 0x00, c := 0x01 };
      (t.h, t.l, packed t, t.pc, t.ticks) = (0x10, 0x00, 0x02, 0x8001, 10))
    ∧ (let t := after { start .ext 0x8000 [0x09] with h := 0x0F, l := 0xFF, b := 0x00, c := 0x01 };
      (t.h, t.l, packed t, t.pc, t.ticks) = (0x10, 0x00, 0x10, 0x8001, 11)) := by decide

/-- V46: DAD H doubles HL (43_arithmetic.md rule R131); V47: DAD SP (43_arithmetic.md rule R131). -/
theorem test_dad_v46 :
    (let t := after { start .base 0x8000 [0x29] with h := 0x43, l := 0x21 };
      (t.h, t.l, packed t, t.pc, t.ticks) = (0x86, 0x42, 0x02, 0x8001, 10))
    ∧ (let t := after { start .ext 0x8000 [0x29] with h := 0x43, l := 0x21 };
      (t.h, t.l, packed t, t.pc, t.ticks) = (0x86, 0x42, 0x00, 0x8001, 11))
    ∧ (let t := after { start .base 0x8000 [0x39] with h := 0x00, l := 0x01, sp := 0xFFFF };
      (t.l, packed t, t.pc, t.ticks) = (0x00, 0x03, 0x8001, 10))
    ∧ (let t := after { start .ext 0x8000 [0x39] with h := 0x00, l := 0x01, sp := 0xFFFF };
      (t.l, packed t, t.pc, t.ticks) = (0x00, 0x11, 0x8001, 11)) := by decide

/-- V48: DAA after 0x0F+0x0F (the source's check, S5); V49: DAA, A=0x9A: both corrections, carry out
(43_arithmetic.md rule R132); V50: DAA with carry in, A=0x00 (43_arithmetic.md rule R132). -/
theorem test_daa_v48 :
    (let t := after { start .base 0x8000 [0x27] with a := 0x1E, flags := { noFlags with fH := true } };
      (t.a, packed t, t.pc, t.ticks) = (0x24, 0x16, 0x8001, 4))
    ∧ (let t := after { start .ext 0x8000 [0x27] with a := 0x1E, flags := { noFlags with fH := true } };
      (t.a, packed t, t.pc, t.ticks) = (0x24, 0x34, 0x8001, 4))
    ∧ (let t := after { start .base 0x8000 [0x27] with a := 0x9A };
      (t.a, packed t, t.pc, t.ticks) = (0x00, 0x57, 0x8001, 4))
    ∧ (let t := after { start .ext 0x8000 [0x27] with a := 0x9A };
      (t.a, packed t, t.pc, t.ticks) = (0x00, 0x55, 0x8001, 4))
    ∧ (let t := after { start .base 0x8000 [0x27] with a := 0x00, flags := { noFlags with fC := true } };
      (t.a, packed t, t.pc, t.ticks) = (0x60, 0x07, 0x8001, 4))
    ∧ (let t := after { start .ext 0x8000 [0x27] with a := 0x00, flags := { noFlags with fC := true } };
      (t.a, packed t, t.pc, t.ticks) = (0x60, 0x25, 0x8001, 4)) := by decide

/-- V51: DAA, A=0x99, no flags: no change (43_arithmetic.md rule R132); V52: EXT DAA after a subtraction (fN=1):
0x10-0x01 gave 0x0F, H=1 (43_arithmetic.md rule R132, 41_alu_flag_engine.md rule R91); V53: EXT DAA with fN=1 and
fC=1 (43_arithmetic.md rule R132, 41_alu_flag_engine.md rule R91). -/
theorem test_daa_v51 :
    (let t := after { start .base 0x8000 [0x27] with a := 0x99 };
      (packed t, t.pc, t.ticks) = (0x86, 0x8001, 4))
    ∧ (let t := after { start .ext 0x8000 [0x27] with a := 0x99 };
      (packed t, t.pc, t.ticks) = (0x8C, 0x8001, 4))
    ∧ (let t := after { start .ext 0x8000 [0x27] with a := 0x0F, flags := { noFlags with fH := true, fN := true } };
      (t.a, packed t, t.pc, t.ticks) = (0x09, 0x0E, 0x8001, 4))
    ∧ (let t := after { start .ext 0x8000 [0x27] with a := 0xA0, flags := { noFlags with fC := true, fN := true } };
      (t.a, packed t, t.pc, t.ticks) = (0x40, 0x03, 0x8001, 4)) := by decide

/-- V54: ANA B to zero (44_logical_rotate.md rule R133). -/
theorem test_anaR_v54 :
    (let t := after { start .base 0x8000 [0xA0] with a := 0xF0, b := 0x0F, flags := { noFlags with fC := true } };
      (t.a, packed t, t.pc, t.ticks) = (0x00, 0x56, 0x8001, 4))
    ∧ (let t := after { start .ext 0x8000 [0xA0] with a := 0xF0, b := 0x0F, flags := { noFlags with fC := true } };
      (t.a, packed t, t.pc, t.ticks) = (0x00, 0x54, 0x8001, 4)) := by decide

/-- V55: ANA M: BASE H from (a|b)[3] (44_logical_rotate.md rule R134). -/
theorem test_anaM_v55 :
    (let t := after { poke (start .base 0x8000 [0xA6]) [(0x8100, 0x22)] with a := 0x33, h := 0x81, l := 0x00 };
      (t.a, packed t, t.pc, t.ticks) = (0x22, 0x06, 0x8001, 7))
    ∧ (let t := after { poke (start .ext 0x8000 [0xA6]) [(0x8100, 0x22)] with a := 0x33, h := 0x81, l := 0x00 };
      (t.a, packed t, t.pc, t.ticks) = (0x22, 0x34, 0x8001, 7)) := by decide

/-- V56: ANI (44_logical_rotate.md rule R135). -/
theorem test_ani_v56 :
    (let t := after { start .base 0x8000 [0xE6, 0x80] with a := 0x8F };
      (t.a, packed t, t.pc, t.ticks) = (0x80, 0x92, 0x8002, 7))
    ∧ (let t := after { start .ext 0x8000 [0xE6, 0x80] with a := 0x8F };
      (t.a, packed t, t.pc, t.ticks) = (0x80, 0x90, 0x8002, 7)) := by decide

/-- V57: XRA C (44_logical_rotate.md rule R136). -/
theorem test_xraR_v57 :
    (let t := after { start .base 0x8000 [0xA9] with
        a := 0xFF, c := 0x0F, flags := { noFlags with fC := true, fH := true } };
      (t.a, packed t, t.pc, t.ticks) = (0xF0, 0x86, 0x8001, 4))
    ∧ (let t := after { start .ext 0x8000 [0xA9] with
        a := 0xFF, c := 0x0F, flags := { noFlags with fC := true, fH := true } };
      (t.a, packed t, t.pc, t.ticks) = (0xF0, 0xA4, 0x8001, 4)) := by decide

/-- V58: XRA A clears A and C (44_logical_rotate.md rule R136). -/
theorem test_xraR_v58 :
    (let t := after { start .base 0x8000 [0xAF] with a := 0x5A, flags := { noFlags with fC := true } };
      (t.a, packed t, t.pc, t.ticks) = (0x00, 0x46, 0x8001, 4))
    ∧ (let t := after { start .ext 0x8000 [0xAF] with a := 0x5A, flags := { noFlags with fC := true } };
      (t.a, packed t, t.pc, t.ticks) = (0x00, 0x44, 0x8001, 4)) := by decide

/-- V59: XRA M (44_logical_rotate.md rule R137). -/
theorem test_xraM_v59 :
    (let t := after { poke (start .base 0x8000 [0xAE]) [(0x8100, 0x01)] with a := 0x01, h := 0x81, l := 0x00 };
      (t.a, packed t, t.pc, t.ticks) = (0x00, 0x46, 0x8001, 7))
    ∧ (let t := after { poke (start .ext 0x8000 [0xAE]) [(0x8100, 0x01)] with a := 0x01, h := 0x81, l := 0x00 };
      (t.a, packed t, t.pc, t.ticks) = (0x00, 0x44, 0x8001, 7)) := by decide

/-- V60: XRI (44_logical_rotate.md rule R138). -/
theorem test_xri_v60 :
    (let t := after { start .base 0x8000 [0xEE, 0xFF] with a := 0x55 };
      (t.a, packed t, t.pc, t.ticks) = (0xAA, 0x86, 0x8002, 7))
    ∧ (let t := after { start .ext 0x8000 [0xEE, 0xFF] with a := 0x55 };
      (t.a, packed t, t.pc, t.ticks) = (0xAA, 0xAC, 0x8002, 7)) := by decide

/-- V61: ORA B, both zero (44_logical_rotate.md rule R139). -/
theorem test_oraR_v61 :
    (let t := after (start .base 0x8000 [0xB0]);
      (packed t, t.pc, t.ticks) = (0x46, 0x8001, 4))
    ∧ (let t := after (start .ext 0x8000 [0xB0]);
      (packed t, t.pc, t.ticks) = (0x44, 0x8001, 4)) := by decide

/-- V62: ORA M (44_logical_rotate.md rule R140). -/
theorem test_oraM_v62 :
    (let t := after { poke (start .base 0x8000 [0xB6]) [(0x8100, 0x01)] with a := 0x80, h := 0x81, l := 0x00 };
      (t.a, packed t, t.pc, t.ticks) = (0x81, 0x86, 0x8001, 7))
    ∧ (let t := after { poke (start .ext 0x8000 [0xB6]) [(0x8100, 0x01)] with a := 0x80, h := 0x81, l := 0x00 };
      (t.a, packed t, t.pc, t.ticks) = (0x81, 0x84, 0x8001, 7)) := by decide

/-- V63: ORI: EXT f3/f5 from the result (44_logical_rotate.md rule R141). -/
theorem test_ori_v63 :
    (let t := after { start .base 0x8000 [0xF6, 0x28] with a := 0x00 };
      (t.a, packed t, t.pc, t.ticks) = (0x28, 0x06, 0x8002, 7))
    ∧ (let t := after { start .ext 0x8000 [0xF6, 0x28] with a := 0x00 };
      (t.a, packed t, t.pc, t.ticks) = (0x28, 0x2C, 0x8002, 7)) := by decide

/-- V64: CMP B, A<B (44_logical_rotate.md rule R142). -/
theorem test_cmpR_v64 :
    (let t := after { start .base 0x8000 [0xB8] with a := 0x05, b := 0x07 };
      (packed t, t.pc, t.ticks) = (0x83, 0x8001, 4))
    ∧ (let t := after { start .ext 0x8000 [0xB8] with a := 0x05, b := 0x07 };
      (packed t, t.pc, t.ticks) = (0x93, 0x8001, 4)) := by decide

/-- V65: CMP A: equal (44_logical_rotate.md rule R142). -/
theorem test_cmpR_v65 :
    (let t := after { start .base 0x8000 [0xBF] with a := 0x28 };
      (packed t, t.pc, t.ticks) = (0x56, 0x8001, 4))
    ∧ (let t := after { start .ext 0x8000 [0xBF] with a := 0x28 };
      (packed t, t.pc, t.ticks) = (0x6A, 0x8001, 4)) := by decide

/-- V66: CMP M equal (44_logical_rotate.md rule R143). -/
theorem test_cmpM_v66 :
    (let t := after { poke (start .base 0x8000 [0xBE]) [(0x8100, 0x40)] with a := 0x40, h := 0x81, l := 0x00 };
      (packed t, t.pc, t.ticks) = (0x56, 0x8001, 7))
    ∧ (let t := after { poke (start .ext 0x8000 [0xBE]) [(0x8100, 0x40)] with a := 0x40, h := 0x81, l := 0x00 };
      (packed t, t.pc, t.ticks) = (0x42, 0x8001, 7)) := by decide

/-- V67: CPI: EXT f3/f5 from the operand, not the result (44_logical_rotate.md rule R144, 41_alu_flag_engine.md
rule R83). -/
theorem test_cpi_v67 :
    (let t := after { start .base 0x8000 [0xFE, 0x28] with a := 0x00 };
      (packed t, t.pc, t.ticks) = (0x87, 0x8002, 7))
    ∧ (let t := after { start .ext 0x8000 [0xFE, 0x28] with a := 0x00 };
      (packed t, t.pc, t.ticks) = (0xBB, 0x8002, 7)) := by decide

/-- V68: CPI: 0x80-1 overflows in EXT (44_logical_rotate.md rule R144). -/
theorem test_cpi_v68 :
    (let t := after { start .base 0x8000 [0xFE, 0x01] with a := 0x80 };
      (packed t, t.pc, t.ticks) = (0x02, 0x8002, 7))
    ∧ (let t := after { start .ext 0x8000 [0xFE, 0x01] with a := 0x80 };
      (packed t, t.pc, t.ticks) = (0x16, 0x8002, 7)) := by decide

/-- V69: RLC (44_logical_rotate.md rule R145). -/
theorem test_rlc_v69 :
    (let t := after { start .base 0x8000 [0x07] with a := 0x81, flags := { noFlags with fZ := true, fH := true } };
      (t.a, packed t, t.pc, t.ticks) = (0x03, 0x53, 0x8001, 4))
    ∧ (let t := after { start .ext 0x8000 [0x07] with a := 0x81, flags := { noFlags with fZ := true, fH := true } };
      (t.a, packed t, t.pc, t.ticks) = (0x03, 0x41, 0x8001, 4)) := by decide

/-- V70: RRC (44_logical_rotate.md rule R146). -/
theorem test_rrc_v70 :
    (let t := after { start .base 0x8000 [0x0F] with a := 0x01 };
      (t.a, packed t, t.pc, t.ticks) = (0x80, 0x03, 0x8001, 4))
    ∧ (let t := after { start .ext 0x8000 [0x0F] with a := 0x01 };
      (t.a, packed t, t.pc, t.ticks) = (0x80, 0x01, 0x8001, 4)) := by decide

/-- V71: RAL (44_logical_rotate.md rule R147). -/
theorem test_ral_v71 :
    (let t := after { start .base 0x8000 [0x17] with a := 0x80, flags := { noFlags with fZ := true } };
      (t.a, packed t, t.pc, t.ticks) = (0x00, 0x43, 0x8001, 4))
    ∧ (let t := after { start .ext 0x8000 [0x17] with a := 0x80, flags := { noFlags with fZ := true } };
      (t.a, packed t, t.pc, t.ticks) = (0x00, 0x41, 0x8001, 4)) := by decide

/-- V72: RAR carry in (44_logical_rotate.md rule R148). -/
theorem test_rar_v72 :
    (let t := after { start .base 0x8000 [0x1F] with a := 0x01, flags := { noFlags with fC := true } };
      (t.a, packed t, t.pc, t.ticks) = (0x80, 0x03, 0x8001, 4))
    ∧ (let t := after { start .ext 0x8000 [0x1F] with a := 0x01, flags := { noFlags with fC := true } };
      (t.a, packed t, t.pc, t.ticks) = (0x80, 0x01, 0x8001, 4)) := by decide

/-- V73: CMA (44_logical_rotate.md rule R149). -/
theorem test_cma_v73 :
    (let t := after { start .base 0x8000 [0x2F] with a := 0x5A };
      (t.a, packed t, t.pc, t.ticks) = (0xA5, 0x02, 0x8001, 4))
    ∧ (let t := after { start .ext 0x8000 [0x2F] with a := 0x5A };
      (t.a, packed t, t.pc, t.ticks) = (0xA5, 0x32, 0x8001, 4)) := by decide

/-- V74: CMC with C=1 (44_logical_rotate.md rule R150). -/
theorem test_cmc_v74 :
    (let t := after { start .base 0x8000 [0x3F] with flags := { noFlags with fC := true } };
      (packed t, t.pc, t.ticks) = (0x02, 0x8001, 4))
    ∧ (let t := after { start .ext 0x8000 [0x3F] with flags := { noFlags with fC := true } };
      (packed t, t.pc, t.ticks) = (0x10, 0x8001, 4)) := by decide

/-- V75: STC (44_logical_rotate.md rule R151). -/
theorem test_stc_v75 :
    (let t := after { start .base 0x8000 [0x37] with a := 0x28, flags := { noFlags with fH := true } };
      (packed t, t.pc, t.ticks) = (0x13, 0x8001, 4))
    ∧ (let t := after { start .ext 0x8000 [0x37] with a := 0x28, flags := { noFlags with fH := true } };
      (packed t, t.pc, t.ticks) = (0x29, 0x8001, 4)) := by decide

/-- V76: JMP (45_branch.md rule R152). -/
theorem test_jmp_v76 :
    (let t := after (start .base 0x8000 [0xC3, 0x00, 0x90]);
      (packed t, t.pc, t.ticks) = (0x02, 0x9000, 10))
    ∧ (let t := after (start .ext 0x8000 [0xC3, 0x00, 0x90]);
      (packed t, t.pc, t.ticks) = (0x00, 0x9000, 10)) := by decide

/-- V77: 0xCB in BASE is JMP (45_branch.md rule R152). -/
theorem test_jmpAlias_v77 :
    (let t := after (start .base 0x8000 [0xCB, 0x00, 0x90]);
      (packed t, t.pc, t.ticks) = (0x02, 0x9000, 10)) := by decide

/-- V78: JZ taken (45_branch.md rule R153); V79: JZ not taken: same cost (45_branch.md rule R153). -/
theorem test_jcc_v78 :
    (let t := after { start .base 0x8000 [0xCA, 0x00, 0x90] with flags := { noFlags with fZ := true } };
      (packed t, t.pc, t.ticks) = (0x42, 0x9000, 10))
    ∧ (let t := after { start .ext 0x8000 [0xCA, 0x00, 0x90] with flags := { noFlags with fZ := true } };
      (packed t, t.pc, t.ticks) = (0x40, 0x9000, 10))
    ∧ (let t := after (start .base 0x8000 [0xCA, 0x00, 0x90]);
      (packed t, t.pc, t.ticks) = (0x02, 0x8003, 10))
    ∧ (let t := after (start .ext 0x8000 [0xCA, 0x00, 0x90]);
      (packed t, t.pc, t.ticks) = (0x00, 0x8003, 10)) := by decide

/-- V80: JPO with fP=0 taken (45_branch.md rule R153); V81: JM with fS=1 taken (45_branch.md rule R153). -/
theorem test_jcc_v80 :
    (let t := after (start .base 0x8000 [0xE2, 0x00, 0x90]);
      (packed t, t.pc, t.ticks) = (0x02, 0x9000, 10))
    ∧ (let t := after (start .ext 0x8000 [0xE2, 0x00, 0x90]);
      (packed t, t.pc, t.ticks) = (0x00, 0x9000, 10))
    ∧ (let t := after { start .base 0x8000 [0xFA, 0x00, 0x90] with flags := { noFlags with fS := true } };
      (packed t, t.pc, t.ticks) = (0x82, 0x9000, 10))
    ∧ (let t := after { start .ext 0x8000 [0xFA, 0x00, 0x90] with flags := { noFlags with fS := true } };
      (packed t, t.pc, t.ticks) = (0x80, 0x9000, 10)) := by decide

/-- V82: CALL (45_branch.md rule R154); V84: CALL with SP=0xC002: both pushes discarded (45_branch.md rule R154,
70_reset_and_hazards.md rule R207). -/
theorem test_call_v82 :
    (let t := after (start .base 0x8000 [0xCD, 0x00, 0xA0]);
      (t.sp, t.memRead 0x8FFE, t.memRead 0x8FFF, packed t, t.pc, t.ticks) = (0x8FFE, 0x03, 0x80, 0x02, 0xA000, 17))
    ∧ (let t := after (start .ext 0x8000 [0xCD, 0x00, 0xA0]);
      (t.sp, t.memRead 0x8FFE, t.memRead 0x8FFF, packed t, t.pc, t.ticks) = (0x8FFE, 0x03, 0x80, 0x00, 0xA000, 17))
    ∧ (let t := after { start .base 0x8000 [0xCD, 0x00, 0xA0] with sp := 0xC002 };
      (t.sp, packed t, t.pc, t.ticks) = (0xC000, 0x02, 0xA000, 17))
    ∧ (let t := after { start .ext 0x8000 [0xCD, 0x00, 0xA0] with sp := 0xC002 };
      (t.sp, packed t, t.pc, t.ticks) = (0xC000, 0x00, 0xA000, 17)) := by decide

/-- V85: CALL at 0xFFFD pushes 0x0000 (45_branch.md rule R154). -/
theorem test_call_v85 :
    (let t := after (poke (start .base 0xFFFD [0xCD, 0x00, 0xA0]) [(0x8FFE, 0xEE), (0x8FFF, 0xEE)]);
      (t.sp, t.memRead 0x8FFE, t.memRead 0x8FFF, packed t, t.pc, t.ticks) = (0x8FFE, 0x00, 0x00, 0x02, 0xA000, 17))
    ∧ (let t := after (poke (start .ext 0xFFFD [0xCD, 0x00, 0xA0]) [(0x8FFE, 0xEE), (0x8FFF, 0xEE)]);
      (t.sp, t.memRead 0x8FFE, t.memRead 0x8FFF, packed t, t.pc, t.ticks) = (0x8FFE, 0x00, 0x00, 0x00, 0xA000, 17)) :=
      by decide

/-- V83: 0xDD in BASE is CALL (45_branch.md rule R154). -/
theorem test_callAlias_v83 :
    (let t := after (start .base 0x8000 [0xDD, 0x00, 0xA0]);
      (t.sp, t.memRead 0x8FFE, t.memRead 0x8FFF, packed t, t.pc, t.ticks) = (0x8FFE, 0x03, 0x80, 0x02, 0xA000, 17)) :=
      by decide

/-- V86: CZ taken (45_branch.md rule R155, S8). -/
theorem test_ccc_v86 :
    (let t := after { start .base 0x8000 [0xCC, 0x00, 0xA0] with flags := { noFlags with fZ := true } };
      (t.sp, t.memRead 0x8FFE, t.memRead 0x8FFF, packed t, t.pc, t.ticks) = (0x8FFE, 0x03, 0x80, 0x42, 0xA000, 17))
    ∧ (let t := after { start .ext 0x8000 [0xCC, 0x00, 0xA0] with flags := { noFlags with fZ := true } };
      (t.sp, t.memRead 0x8FFE, t.memRead 0x8FFF, packed t, t.pc, t.ticks) = (0x8FFE, 0x03, 0x80, 0x40, 0xA000, 17)) :=
      by decide

/-- V87: CZ not taken (45_branch.md rule R155, S8). -/
theorem test_ccc_v87 :
    (let t := after (start .base 0x8000 [0xCC, 0x00, 0xA0]);
      (packed t, t.pc, t.ticks) = (0x02, 0x8003, 11))
    ∧ (let t := after (start .ext 0x8000 [0xCC, 0x00, 0xA0]);
      (packed t, t.pc, t.ticks) = (0x00, 0x8003, 10)) := by decide

/-- V88: RET (45_branch.md rule R156). -/
theorem test_ret_v88 :
    (let t := after { poke (start .base 0x8000 [0xC9]) [(0x8FFE, 0x03), (0x8FFF, 0x80)] with sp := 0x8FFE };
      (t.sp, packed t, t.pc, t.ticks) = (0x9000, 0x02, 0x8003, 10))
    ∧ (let t := after { poke (start .ext 0x8000 [0xC9]) [(0x8FFE, 0x03), (0x8FFF, 0x80)] with sp := 0x8FFE };
      (t.sp, packed t, t.pc, t.ticks) = (0x9000, 0x00, 0x8003, 10)) := by decide

/-- V89: RET with SP=0xFFFF: high byte from 0x0000 (45_branch.md rule R156). -/
theorem test_ret_v89 :
    (let t := after { poke (start .base 0x8000 [0xC9]) [(0xFFFF, 0x34), (0x0000, 0x12)] with sp := 0xFFFF };
      (t.sp, packed t, t.pc, t.ticks) = (0x0001, 0x02, 0x1234, 10))
    ∧ (let t := after { poke (start .ext 0x8000 [0xC9]) [(0xFFFF, 0x34), (0x0000, 0x12)] with sp := 0xFFFF };
      (t.sp, packed t, t.pc, t.ticks) = (0x0001, 0x00, 0x1234, 10)) := by decide

/-- V112: 0xD9 in BASE is RET (45_branch.md rule R156). -/
theorem test_retAlias_v112 :
    (let t := after { poke (start .base 0x8000 [0xD9]) [(0x8FFE, 0x03), (0x8FFF, 0x80)] with sp := 0x8FFE };
      (t.sp, packed t, t.pc, t.ticks) = (0x9000, 0x02, 0x8003, 10)) := by decide

/-- V90: RNC taken (45_branch.md rule R157). -/
theorem test_rcc_v90 :
    (let t := after { poke (start .base 0x8000 [0xD0]) [(0x8FFE, 0x03), (0x8FFF, 0x80)] with sp := 0x8FFE };
      (t.sp, packed t, t.pc, t.ticks) = (0x9000, 0x02, 0x8003, 11))
    ∧ (let t := after { poke (start .ext 0x8000 [0xD0]) [(0x8FFE, 0x03), (0x8FFF, 0x80)] with sp := 0x8FFE };
      (t.sp, packed t, t.pc, t.ticks) = (0x9000, 0x00, 0x8003, 11)) := by decide

/-- V91: RNC not taken (45_branch.md rule R157). -/
theorem test_rcc_v91 :
    (let t := after { poke (start .base 0x8000 [0xD0]) [(0x8FFE, 0x03), (0x8FFF, 0x80)] with
        sp := 0x8FFE, flags := { noFlags with fC := true } };
      (packed t, t.pc, t.ticks) = (0x03, 0x8001, 5))
    ∧ (let t := after { poke (start .ext 0x8000 [0xD0]) [(0x8FFE, 0x03), (0x8FFF, 0x80)] with
        sp := 0x8FFE, flags := { noFlags with fC := true } };
      (packed t, t.pc, t.ticks) = (0x01, 0x8001, 5)) := by decide

/-- V92: RST 5 (45_branch.md rule R158). -/
theorem test_rst_v92 :
    (let t := after (start .base 0x8000 [0xEF]);
      (t.sp, t.memRead 0x8FFE, t.memRead 0x8FFF, packed t, t.pc, t.ticks) = (0x8FFE, 0x01, 0x80, 0x02, 0x0028, 11))
    ∧ (let t := after (start .ext 0x8000 [0xEF]);
      (t.sp, t.memRead 0x8FFE, t.memRead 0x8FFF, packed t, t.pc, t.ticks) = (0x8FFE, 0x01, 0x80, 0x00, 0x0028, 11)) :=
      by decide

/-- V93: RST 7 (45_branch.md rule R158). -/
theorem test_rst_v93 :
    (let t := after { start .base 0x8000 [0xFF] with sp := 0x0001 };
      (t.sp, t.memRead 0x0000, packed t, t.pc, t.ticks) = (0xFFFF, 0x80, 0x02, 0x0038, 11))
    ∧ (let t := after { start .ext 0x8000 [0xFF] with sp := 0x0001 };
      (t.sp, t.memRead 0x0000, packed t, t.pc, t.ticks) = (0xFFFF, 0x80, 0x00, 0x0038, 11)) := by decide

/-- V94: PCHL (45_branch.md rule R159). -/
theorem test_pchl_v94 :
    (let t := after { start .base 0x8000 [0xE9] with h := 0x12, l := 0x34 };
      (packed t, t.pc, t.ticks) = (0x02, 0x1234, 5))
    ∧ (let t := after { start .ext 0x8000 [0xE9] with h := 0x12, l := 0x34 };
      (packed t, t.pc, t.ticks) = (0x00, 0x1234, 4)) := by decide

/-- V95: PUSH B (46_stack_io_control.md rule R161). -/
theorem test_push_v95 :
    (let t := after { start .base 0x8000 [0xC5] with b := 0x12, c := 0x34 };
      (t.sp, t.memRead 0x8FFE, t.memRead 0x8FFF, packed t, t.pc, t.ticks) = (0x8FFE, 0x34, 0x12, 0x02, 0x8001, 11))
    ∧ (let t := after { start .ext 0x8000 [0xC5] with b := 0x12, c := 0x34 };
      (t.sp, t.memRead 0x8FFE, t.memRead 0x8FFF, packed t, t.pc, t.ticks) = (0x8FFE, 0x34, 0x12, 0x00, 0x8001, 11)) :=
      by decide

/-- V127: PUSH B with SP=0x0001: high byte at 0x0000 applied, low byte at 0xFFFF discarded (70_reset_and_hazards.md
rule R207). -/
theorem test_push_v127 :
    (let t := after { start .base 0x8000 [0xC5] with b := 0x12, c := 0x34, sp := 0x0001 };
      (t.sp, t.memRead 0x0000, packed t, t.pc, t.ticks) = (0xFFFF, 0x12, 0x02, 0x8001, 11))
    ∧ (let t := after { start .ext 0x8000 [0xC5] with b := 0x12, c := 0x34, sp := 0x0001 };
      (t.sp, t.memRead 0x0000, packed t, t.pc, t.ticks) = (0xFFFF, 0x12, 0x00, 0x8001, 11)) := by decide

/-- V96: PUSH PSW (46_stack_io_control.md rule R162). -/
theorem test_pushPsw_v96 :
    (let t := after { start .base 0x8000 [0xF5] with a := 0x12, flags := { noFlags with fZ := true, fC := true } };
      (t.sp, t.memRead 0x8FFE, t.memRead 0x8FFF, packed t, t.pc, t.ticks) = (0x8FFE, 0x43, 0x12, 0x43, 0x8001, 11))
    ∧ (let t := after { start .ext 0x8000 [0xF5] with a := 0x12, flags := { noFlags with fZ := true, fC := true } };
      (t.sp, t.memRead 0x8FFE, t.memRead 0x8FFF, packed t, t.pc, t.ticks) = (0x8FFE, 0x41, 0x12, 0x41, 0x8001, 11)) :=
      by decide

/-- V97: PUSH PSW, EXT: all 8 flag bits (46_stack_io_control.md rule R162). -/
theorem test_pushPsw_v97 :
    (let t := after { start .ext 0x8000 [0xF5] with
        a := 0x12,
        flags := { noFlags with fS := true, fZ := true, f5 := true, fH := true, f3 := true, fP := true, fN := true, fC := true } };
      (t.sp, t.memRead 0x8FFE, t.memRead 0x8FFF, packed t, t.pc, t.ticks) = (0x8FFE, 0xFF, 0x12, 0xFF, 0x8001, 11)) :=
      by decide

/-- V98: POP D (46_stack_io_control.md rule R163). -/
theorem test_pop_v98 :
    (let t := after { poke (start .base 0x8000 [0xD1]) [(0x8FFE, 0x34), (0x8FFF, 0x12)] with sp := 0x8FFE };
      (t.d, t.e, t.sp, packed t, t.pc, t.ticks) = (0x12, 0x34, 0x9000, 0x02, 0x8001, 10))
    ∧ (let t := after { poke (start .ext 0x8000 [0xD1]) [(0x8FFE, 0x34), (0x8FFF, 0x12)] with sp := 0x8FFE };
      (t.d, t.e, t.sp, packed t, t.pc, t.ticks) = (0x12, 0x34, 0x9000, 0x00, 0x8001, 10)) := by decide

/-- V99: POP PSW of 0xFF: BASE drops bits 1, 3, 5 (46_stack_io_control.md rule R164). -/
theorem test_popPsw_v99 :
    (let t := after { poke (start .base 0x8000 [0xF1]) [(0x8FFE, 0xFF), (0x8FFF, 0x80)] with sp := 0x8FFE };
      (t.a, t.sp, packed t, t.pc, t.ticks) = (0x80, 0x9000, 0xD7, 0x8001, 10))
    ∧ (let t := after { poke (start .ext 0x8000 [0xF1]) [(0x8FFE, 0xFF), (0x8FFF, 0x80)] with sp := 0x8FFE };
      (t.a, t.sp, packed t, t.pc, t.ticks) = (0x80, 0x9000, 0xFF, 0x8001, 10)) := by decide

/-- V100: XTHL (46_stack_io_control.md rule R165). -/
theorem test_xthl_v100 :
    (let t := after { poke (start .base 0x8000 [0xE3]) [(0x8FFE, 0x34), (0x8FFF, 0x12)] with
        h := 0xAB, l := 0xCD, sp := 0x8FFE };
      (t.h, t.l, t.memRead 0x8FFE, t.memRead 0x8FFF, packed t, t.pc)
        = (0x12, 0x34, 0xCD, 0xAB, 0x02, 0x8001) ∧ t.ticks = 18)
    ∧ (let t := after { poke (start .ext 0x8000 [0xE3]) [(0x8FFE, 0x34), (0x8FFF, 0x12)] with
        h := 0xAB, l := 0xCD, sp := 0x8FFE };
      (t.h, t.l, t.memRead 0x8FFE, t.memRead 0x8FFF, packed t, t.pc)
        = (0x12, 0x34, 0xCD, 0xAB, 0x00, 0x8001) ∧ t.ticks = 19) :=
      by decide

/-- V101: SPHL (46_stack_io_control.md rule R166). -/
theorem test_sphl_v101 :
    (let t := after { start .base 0x8000 [0xF9] with h := 0xBF, l := 0xF0 };
      (t.sp, packed t, t.pc, t.ticks) = (0xBFF0, 0x02, 0x8001, 5))
    ∧ (let t := after { start .ext 0x8000 [0xF9] with h := 0xBF, l := 0xF0 };
      (t.sp, packed t, t.pc, t.ticks) = (0xBFF0, 0x00, 0x8001, 6)) := by decide

/-- V105: EI (46_stack_io_control.md rule R169). -/
theorem test_ei_v105 :
    (let t := after (start .base 0x8000 [0xFB]);
      (t.iff1, t.iff2, packed t, t.pc, t.ticks) = (true, true, 0x02, 0x8001, 4))
    ∧ (let t := after (start .ext 0x8000 [0xFB]);
      (t.iff1, t.iff2, packed t, t.pc, t.ticks) = (true, true, 0x00, 0x8001, 4)) := by decide

/-- V107: NOP (46_stack_io_control.md rule R172). -/
theorem test_nop_v107 :
    (let t := after (start .base 0x8000 [0x00]);
      (packed t, t.pc, t.ticks) = (0x02, 0x8001, 4))
    ∧ (let t := after (start .ext 0x8000 [0x00]);
      (packed t, t.pc, t.ticks) = (0x00, 0x8001, 4)) := by decide

/-- V108: 0x08 in BASE is NOP (46_stack_io_control.md rule R172). -/
theorem test_nopAlias_v108 :
    (let t := after (start .base 0x8000 [0x08]);
      (packed t, t.pc, t.ticks) = (0x02, 0x8001, 4)) := by decide

/-- V109: EX AF,AF' (47_extended_mode.md rule R173). -/
theorem test_exAfAf_v109 :
    (let t := after { start .ext 0x8000 [0x08] with
        a := 0x11, flags := { noFlags with fZ := true }, alt := { noAlt with a := 0x22, f := 0x01 } };
      (t.a, t.alt.a, t.alt.f, packed t, t.pc, t.ticks) = (0x22, 0x11, 0x40, 0x01, 0x8001, 4)) := by decide

/-- V111: EXX (47_extended_mode.md rule R174). -/
theorem test_exx_v111 :
    (let t := after { start .ext 0x8000 [0xD9] with
        b := 0x11, c := 0x11, d := 0x33, e := 0x33, h := 0x55, l := 0x55, alt := { noAlt with b := 0x22, c := 0x22, d := 0x44, e := 0x44, h := 0x66, l := 0x66 } };
      (t.b, t.c, t.d, t.e, t.h, t.l) = (0x22, 0x22, 0x44, 0x44, 0x66, 0x66)
      ∧ (t.alt.b, t.alt.c, t.alt.d, t.alt.e, t.alt.h, t.alt.l) = (0x11, 0x11, 0x33, 0x33, 0x55, 0x55) ∧ (packed t, t.pc, t.ticks)
        = (0x00, 0x8001, 4)) :=
      by decide

/-- V114: DJNZ with B=0 wraps to 0xFF and jumps (47_extended_mode.md rule R175). -/
theorem test_djnz_v114 :
    (let t := after { start .ext 0x8000 [0x10, 0x10] with b := 0x00 };
      (t.b, packed t, t.pc, t.ticks) = (0xFF, 0x00, 0x8012, 13)) := by decide

/-- V115: DJNZ with B=1 falls through; fZ not written (47_extended_mode.md rule R175). -/
theorem test_djnz_v115 :
    (let t := after { start .ext 0x8000 [0x10, 0x10] with b := 0x01 };
      (t.b, packed t, t.pc, t.ticks) = (0x00, 0x00, 0x8002, 8)) := by decide

/-- V116: JR +5 (47_extended_mode.md rule R176); V117: JR -5 (47_extended_mode.md rule R176). -/
theorem test_jr_v116 :
    (let t := after (start .ext 0x8000 [0x18, 0x05]);
      (packed t, t.pc, t.ticks) = (0x00, 0x8007, 12))
    ∧ (let t := after (start .ext 0x8000 [0x18, 0xFB]);
      (packed t, t.pc, t.ticks) = (0x00, 0x7FFD, 12)) := by decide

/-- V118: JR from 0xFFF0 wraps (47_extended_mode.md rule R176). -/
theorem test_jr_v118 :
    (let t := after (start .ext 0xFFF0 [0x18, 0x7F]);
      (packed t, t.pc, t.ticks) = (0x00, 0x0071, 12)) := by decide

/-- V119: JR C taken (47_extended_mode.md rule R177); V120: JR C not taken (47_extended_mode.md rule R177). -/
theorem test_jrCc_v119 :
    (let t := after { start .ext 0x8000 [0x38, 0x10] with flags := { noFlags with fC := true } };
      (packed t, t.pc, t.ticks) = (0x01, 0x8012, 12))
    ∧ (let t := after (start .ext 0x8000 [0x38, 0x10]);
      (packed t, t.pc, t.ticks) = (0x00, 0x8002, 7)) := by decide

/-- V121: JR NZ -128 (47_extended_mode.md rule R177). -/
theorem test_jrCc_v121 :
    (let t := after (start .ext 0x8000 [0x20, 0x80]);
      (packed t, t.pc, t.ticks) = (0x00, 0x7F82, 12)) := by decide

/-- V102 and V103: IN takes the host's answer; the default stub answers 0 (R167). -/
theorem test_inPort_v102 :
    (let t := after { start .base 0x8000 [0xDB, 0x01] with portAnswers := [0x5A] };
      (t.a, packed t, t.pc, t.ticks) = (0x5A, 0x02, 0x8002, 10))
    ∧ (let t := after { start .ext 0x8000 [0xDB, 0x02] with a := 0x77, portAnswers := [0x00] };
      (t.a, packed t, t.pc, t.ticks) = (0x00, 0x00, 0x8002, 11)) := by decide

/-- V104: OUT 0xFE (R168). -/
theorem test_outPort_v104 :
    (let t := after { start .base 0x8000 [0xD3, 0xFE] with a := 0x07 };
      (t.portLog, packed t, t.pc, t.ticks) = ([(0x00FE, 0x07)], 0x02, 0x8002, 10))
    ∧ (let t := after { start .ext 0x8000 [0xD3, 0xFE] with a := 0x07 };
      (t.portLog, packed t, t.pc, t.ticks) = ([(0x00FE, 0x07)], 0x00, 0x8002, 11)) := by decide

/-- The first step of V106: HLT adds its ticks and leaves PC (R171). -/
theorem test_hlt_v106 :
    (let t := after (start .base 0x8000 [0x76]);
      (packed t, t.pc, t.ticks) = (0x02, 0x8000, 7))
    ∧ (let t := after (start .ext 0x8000 [0x76]);
      (packed t, t.pc, t.ticks) = (0x00, 0x8000, 4)) := by decide

/-- DI clears both flip-flops (R170). -/
theorem test_di :
    (let t := after { start .base 0x8000 [0xF3] with iff1 := true, iff2 := true };
      (t.iff1, t.iff2, packed t, t.pc, t.ticks) = (false, false, 0x02, 0x8001, 4)) := by decide

/-- The first step of V122: the prefix byte alone, then RLC at the next PC (R61, R178). -/
theorem test_prefixCB_v122 :
    (let t := after { start .ext 0x8000 [0xCB, 0x07] with a := 0x81 };
      (t.a, packed t, t.pc, t.ticks, t.fetch) = (0x81, 0x00, 0x8001, 0, .rlc)) := by decide

/-- A prefix byte does not select another register: 0xDD 0x21 is a prefix and then LXI H (R61). -/
theorem test_prefixDD :
    (let t := after (start .ext 0x8000 [0xDD, 0x21, 0x34, 0x12]);
      (t.hl, t.ix, t.pc, t.ticks, t.fetch) = (0, 0, 0x8001, 0, .lxi .hl 0x1234)) := by decide

/-- The first step of V123 (R178). -/
theorem test_prefixED_v123 :
    (let t := after (start .ext 0x8000 [0xED, 0xED, 0xED]);
      (packed t, t.pc, t.ticks) = (0x00, 0x8001, 0)) := by decide

/-- 0xFD is a prefix in EXT and CALL in BASE (R58, R59). -/
theorem test_prefixFD :
    (let t := after (start .ext 0x8000 [0xFD, 0x34, 0x12]);
      (t.sp, t.pc, t.ticks) = (0x9000, 0x8001, 0))
    ∧ (let t := after (start .base 0x8000 [0xFD, 0x34, 0x12]);
      (t.sp, t.pc, t.ticks) = (0x8FFE, 0x1234, 17)) := by decide

/-- V124: STA of a control word to offset 3 fills the window (R33), seen at its ends and beside it. -/
theorem test_window_control_v124 :
    (let t := after { start .base 0x8000 [0x32, 0xFB, 0xFF] with a := 0x9B, cfg := windowParams .base .discard };
      (t.memRead 0xF800, t.memRead 0xF801, t.memRead 0xFFFE, t.memRead 0xFFFF, t.memRead 0xF7FF)
        = (0x11, 0x22, 0x33, 0x9B, 0x00) ∧ (packed t, t.pc, t.ticks) = (0x02, 0x8003, 13)) := by decide +kernel

/-- V125 and V126: a data write in the window is discarded, or stored at every address of its offset (R34). -/
theorem test_window_data_v125 :
    (let t := after { start .ext 0x8000 [0x32, 0xFA, 0xFF] with a := 0x9B, cfg := windowParams .ext .discard };
      (t.memRead 0xFFFA, t.pc, t.ticks) = (0x00, 0x8003, 13))
    ∧ (let t := after { start .base 0x8000 [0x32, 0xFA, 0xFF] with
        a := 0x55, cfg := windowParams .base .storeReplicated };
      (t.memRead 0xF802, t.memRead 0xFFFE, t.memRead 0xFFFF, t.pc) = (0x55, 0x55, 0x00, 0x8003)) := by decide +kernel

/-! ## Host actions and construction -/

/-- H3 and H4: ticks are cleared, and the loader writes into the ROM area (R73). -/
theorem test_host_actions :
    ((after (start .base 0x8000 [0x00])).hostResetTicks.ticks, (start .base 0 []).hostWriteMem 0xC000 7 |>.memRead 0xC000)
      = (0, 7) := by decide

/-- A table in which every opcode costs 9 taken and 6 not taken. -/
def otherTicks : TickTable := Vector.replicate 16 (Vector.replicate 16 (9, 6))

/-- Other tick parameters reach the ticks: NOP, Jcc not taken and a prefix byte (R5, R68, R178). -/
theorem test_other_ticks :
    let p := { testParams .ext with ticksBase := otherTicks, ticksExt := otherTicks, prefixTicks := 4 };
    (after { start .base 0x8000 [0x00] with cfg := { p with mode := .base } }).ticks = 9
    ∧ (after { start .ext 0x8000 [0xCA, 0, 0] with cfg := p }).ticks = 6
    ∧ (after { start .ext 0x8000 [0xDD] with cfg := p }).ticks = 4 := by decide

/-- Another set of EXT flag rules: 7F + 01 keeps the source's result and fS, fZ, fH, fC; the rest is free (D12). -/
theorem test_other_flag_rules :
    let s := { start .ext 0x8000 [0xC6, 0x01] with a := 0x7F, cfg := { testParams .ext with extFlagRules := .other 3 } };
    let d := Config.extDetails 3 (.add 0x7F 0x01 false) noFlags;
    (after s).a = 0x80 ∧ (after s).flags = ⟨true, false, true, d.fP, false, d.f3, d.f5, d.fN⟩ := ⟨rfl, rfl⟩

/-- Construction in BASE clears f3, f5 and fN and keeps the other flags (R16, R24). -/
theorem test_construct_base :
    (State.construct (testParams .base) 0xC000 { resetRegs with flags := ⟨true, true, true, true, true, true, true, true⟩ }
      []).flags = ⟨true, true, true, true, true, false, false, false⟩ := by decide

/-! ## Witnesses: each statement's hypotheses are met -/

/-- DecodeEncodeRoundTrip, in both modes. -/
theorem test_witness_round_trip :
    (Instr.lxi .sp 0xFFFF).wf .base = true ∧ (Instr.callAlias 3 0xFFFF).wf .base = true
    ∧ (Instr.jrCc .c 0xFF).wf .ext = true := by decide

/-- DecodedBytesReencode. -/
theorem test_witness_reencode : decode .base [0xFD, 0xFF, 0xFF, 0x00] = .ok (.callAlias 3 0xFFFF, [0x00]) := rfl

/-- LengthFollowsOpcode, both clauses at the boundary of the length. -/
theorem test_witness_length :
    instrLength .base 0xFD ≤ [(0 : Byte), 0].length + 1 ∧ [(0 : Byte)].length + 1 < instrLength .base 0xFD := by decide

/-- DuplicatesActAsTheirTwins: a duplicate number, BASE and the decided tables. -/
theorem test_witness_duplicates :
    (7 : BitVec 3) ≠ 0 ∧ (start .base 0 []).cfg.mode = .base ∧ DecidedTicks (start .base 0 []).cfg :=
  ⟨by decide, rfl, rfl, rfl⟩

/-- Every statement about costs: both modes at the decided tables (JumpInstructions, CallInstructions, ReturnInstructions
and MachineControlInstructions ask BASE of a duplicate's cost). -/
theorem test_witness_ticks :
    (start .base 0 []).cfg.mode = .base ∧ DecidedTicks (start .base 0 []).cfg ∧ (start .ext 0 []).cfg.mode = .ext
    ∧ DecidedTicks (start .ext 0 []).cfg := ⟨rfl, ⟨rfl, rfl⟩, rfl, rfl, rfl⟩

/-- Every statement about flags: the rules of BASE and the Z80 rules in EXT. -/
theorem test_witness_flag_rules :
    (start .base 0 []).cfg.flagRules = .base ∧ (start .ext 0 []).cfg.flagRules = .ext .z80 := by decide

/-- ParametersTouchTheirOwnEffect: a step, an instruction that is not DAA, DAA with fN set, and BASE. -/
theorem test_witness_parameters :
    step (start .ext 0x8000 [0x3C]) = .next (after (start .ext 0x8000 [0x3C]))
    ∧ (match exec .daa (start .ext 0x8000 []) with | .next t => t.pc = 0x8001 | _ => False)
    ∧ ¬ (Instr.addM = .daa ∧ noFlags.fN = true) ∧ (start .base 0 []).cfg.mode = .base :=
  ⟨rfl, rfl, by decide, rfl⟩

/-- StepRunsDecodedInstruction. -/
theorem test_witness_step :
    let s := start .base 0xFFFE [0x3E, 0x05];
    decode s.cfg.mode [s.memRead s.pc, s.memRead (s.pc + 1), s.memRead (s.pc + 2)] = .ok (.mviR .a 0x05, [0x00])
      ∧ (Instr.mviR .a 0x05).wf s.cfg.mode = true := ⟨rfl, rfl⟩

/-- RamWriteApplies, at the last address of RAM. -/
theorem test_witness_ram : (0xBFFF : Word) < (start .base 0 []).cfg.romBoundary := by decide

/-- RomWriteDiscarded, at the first and the last address of the ROM area. -/
theorem test_witness_rom :
    let s := start .base 0 [];
    (¬ (0xC000 : Word) < s.cfg.romBoundary ∧ ¬ (s.cfg.windowLo ≤ 0xC000 ∧ 0xC000 ≤ s.cfg.windowHi))
      ∧ ¬ (0xF7FF : Word) < s.cfg.romBoundary ∧ ¬ (s.cfg.windowLo ≤ 0xF7FF ∧ 0xF7FF ≤ s.cfg.windowHi) := by decide

/-- ControlWordFillsWindow, at the first and the last address of offset 3. -/
theorem test_witness_control_word :
    let s := { start .base 0 [] with cfg := windowParams .base .discard };
    (¬ (0xF803 : Word) < s.cfg.romBoundary ∧ s.cfg.windowLo ≤ 0xF803 ∧ 0xF803 ≤ s.cfg.windowHi
      ∧ (0xF803 : Word).toNat % 4 = 3 ∧ ppiControl s.cfg 0x9B = some ⟨0x11, 0x22, 0x33, 0x9B⟩)
    ∧ ¬ (0xFFFF : Word) < s.cfg.romBoundary ∧ s.cfg.windowLo ≤ 0xFFFF ∧ 0xFFFF ≤ s.cfg.windowHi
      ∧ (0xFFFF : Word).toNat % 4 = 3 := by decide

/-- WindowDataWriteByPolicy: a data offset, an offset 3 without a control word, and each policy. -/
theorem test_witness_window_data :
    (∀ x : WindowDataWrite,
      let s := { start .base 0 [] with cfg := windowParams .base x };
      (¬ (0xF800 : Word) < s.cfg.romBoundary ∧ s.cfg.windowLo ≤ 0xF800 ∧ 0xF800 ≤ s.cfg.windowHi
        ∧ (0xF800 : Word).toNat % 4 ≠ 3)
      ∧ ¬ (0xFFFF : Word) < s.cfg.romBoundary ∧ s.cfg.windowLo ≤ 0xFFFF ∧ 0xFFFF ≤ s.cfg.windowHi
        ∧ ppiControl s.cfg 0x00 = none ∧ s.cfg.windowDataWrite = x) := by
  intro x; cases x <;> decide

/-- MemoryEqualWhenReadsEqual, on two memories built in different orders. -/
theorem test_witness_memory_equal :
    (Memory.write (Memory.write [] 5 1) 3 2).wf ∧ (Memory.write (Memory.write [] 3 2) 5 1).wf
    ∧ ∀ a, (Memory.write (Memory.write [] 5 1) 3 2).read a = (Memory.write (Memory.write [] 3 2) 5 1).read a :=
  ⟨by decide, by decide, fun _ => rfl⟩

/-- RepeatedWriteChangesNothing: a canonical memory that is not empty. -/
theorem test_witness_repeated_write : (start .base 0x8000 [0x01, 0x02]).mem.wf := by decide

/-- WordsAreLittleEndian: the last word of RAM. -/
theorem test_witness_word :
    (0xBFFE : Word) < (start .base 0 []).cfg.romBoundary ∧ (0xBFFE : Word) + 1 < (start .base 0 []).cfg.romBoundary := by
  decide

/-- DecimalAdjustInstruction and DecimalAdjustModesAgree: both modes, the Z80 rules, and fN both ways. -/
theorem test_witness_daa :
    (start .base 0 []).cfg.mode = .base ∧ (start .ext 0 []).cfg.mode = .ext ∧ noFlags.fN = false
    ∧ (start .ext 0 []).cfg.extFlagRules = .z80 ∧ ({ start .ext 0 [] with flags := { noFlags with fN := true } } : State).flags.fN = true := by decide

/-- CallInstructions, ReturnInstructions and RelativeJumpInstructions: a condition that holds and one that does not. -/
theorem test_witness_conditions :
    condHolds noFlags .nz = true ∧ condHolds noFlags .m = false ∧ condHolds noFlags (condOf (BitVec.setWidth 3 0#2)) = true
    ∧ condHolds noFlags (condOf (BitVec.setWidth 3 3#2)) = false := by decide

/-- StackRoundTripInRam: the highest stack that lies in RAM, and one that wraps to the lowest. -/
theorem test_witness_stack_ram :
    (let s := { start .base 0 [] with sp := 0xC000 };
      s.sp - 1 < s.cfg.romBoundary ∧ s.sp - 2 < s.cfg.romBoundary)
    ∧ (let s := { start .base 0 [] with sp := 0x0002 };
      s.sp - 1 < s.cfg.romBoundary ∧ s.sp - 2 < s.cfg.romBoundary) := by decide

/-- PushIntoRomIsLost: the lowest and the highest stack of the ROM area. -/
theorem test_witness_stack_rom :
    (let s := { start .base 0 [] with sp := 0xC002 };
      ¬ s.sp - 1 < s.cfg.romBoundary ∧ ¬ s.sp - 2 < s.cfg.romBoundary ∧ inWindow s.cfg (s.sp - 1) = false
        ∧ inWindow s.cfg (s.sp - 2) = false)
    ∧ (let s := { start .base 0 [] with sp := 0xF800 };
      ¬ s.sp - 1 < s.cfg.romBoundary ∧ ¬ s.sp - 2 < s.cfg.romBoundary ∧ inWindow s.cfg (s.sp - 1) = false
        ∧ inWindow s.cfg (s.sp - 2) = false) := by decide

/-- PortInstructions: an answer waiting, none waiting, and both forms of the port number. -/
theorem test_witness_ports :
    ({ start .base 0 [] with portAnswers := [1, 2] } : State).portAnswers = 1 :: [2] ∧ (start .base 0 []).portAnswers = []
    ∧ (start .base 0 []).cfg.portAddressing = .zeroExtended
    ∧ ({ start .base 0 [] with cfg := { resetParams with portAddressing := .accumulatorHigh } } : State).cfg.portAddressing
      = .accumulatorHigh := by
  refine ⟨rfl, rfl, rfl, rfl⟩

/-- ExchangeInstructions, RelativeJumpInstructions and PrefixByteInstructions: a state in EXT; DJNZ's two outcomes. -/
theorem test_witness_ext :
    (start .ext 0 []).cfg.mode = .ext ∧ (1 + 255) % 256 = 0 ∧ (2 + 255) % 256 ≠ 0 := by decide

/-- PrefixesDoNotCombine, at the top of memory. -/
theorem test_witness_prefix :
    (start .ext 0xFFFF [0xFD]).cfg.mode = .ext
    ∧ ((start .ext 0xFFFF [0xFD]).memRead 0xFFFF).toNat ∈ [0xCB, 0xDD, 0xED, 0xFD] := by decide

/-- StepKeepsInvariant, UnreachedStateIsFixed, TicksFollowTheTables and UnobservableStateDoesNotInterfere, in BASE. -/
theorem test_witness_invariant :
    (start .base 0x8000 [0x3C]).Inv ∧ step (start .base 0x8000 [0x3C]) = .next (after (start .base 0x8000 [0x3C]))
    ∧ (start .base 0x8000 [0x3C]).cfg.mode = .base := ⟨by decide, rfl, rfl⟩

/-- The three frames: an instruction that stores, and a byte beside what it stores to. -/
theorem test_witness_frames :
    (let s := start .base 0x8000 [];
      exec (.sta 0xBFFF) s = .next ((s.memWrite 0xBFFF s.a).advance (.sta 0xBFFF) 3)
      ∧ ∀ x ∈ stores s (.sta 0xBFFF), ¬ mayChange s.cfg x.1 x.2 0xBFFE) := by
  refine ⟨rfl, ?_⟩
  intro x hx
  obtain rfl := List.mem_singleton.1 hx
  unfold mayChange
  rw [if_pos (by decide)]
  decide

/-- MemoryFrameOfStores, a store the ROM area discards: no byte at all may change. -/
theorem test_witness_frame_rom :
    ∀ w, ¬ mayChange (start .base 0x8000 []).cfg 0xC000 0x33 w ∧ ¬ mayChange (start .base 0x8000 []).cfg 0xF7FF 0x33 w := by
  intro w
  unfold mayChange
  rw [if_neg (by decide), if_neg (by decide), if_neg (by decide), if_neg (by decide)]
  exact ⟨id, id⟩

/-- MemoryFrameOfStores, a control word and a replicated data write in the window: bytes beside what they change. -/
theorem test_witness_frame_window :
    ¬ mayChange (windowParams .base .discard) 0xFFFF 0x9B 0xF7FF
    ∧ ¬ mayChange (windowParams .base .storeReplicated) 0xFFFC 0x55 0xFFFD := by
  unfold mayChange
  rw [if_neg (by decide), if_pos (by decide), if_pos (by decide), if_neg (by decide), if_pos (by decide),
    if_neg (by decide)]
  exact ⟨by decide, fun h => absurd h.2 (by decide)⟩

/-- ControlWordFillsWindow and WindowDataWriteByPolicy: the address just below the window, and one of another offset. -/
theorem test_witness_window_outside :
    let p := windowParams .base .storeReplicated;
    ¬ (p.windowLo ≤ 0xF7FF ∧ (0xF7FF : Word) ≤ p.windowHi)
    ∧ ¬ (p.windowLo ≤ 0xF801 ∧ (0xF801 : Word) ≤ p.windowHi ∧ (0xF801 : Word).toNat % 4 = (0xF800 : Word).toNat % 4)
    ∧ p.windowLo ≤ 0xFFFC ∧ (0xFFFC : Word) ≤ p.windowHi ∧ (0xFFFC : Word).toNat % 4 = (0xF800 : Word).toNat % 4 := by
  decide

/-- UnreachedStateIsFixed and TicksNeverDecrease: an opcode that is none of those named, in EXT. -/
theorem test_witness_opcodes :
    (let s := start .ext 0x8000 [0x3C];
      (s.memRead s.pc).toNat ≠ 0xFB ∧ (s.memRead s.pc).toNat ≠ 0xF3 ∧ s.cfg.mode = .ext
      ∧ (s.memRead s.pc).toNat ∉ [0xCB, 0xDD, 0xED, 0xFD])
    ∧ step (start .ext 0x8000 [0x3C]) = .next (after (start .ext 0x8000 [0x3C])) := ⟨by decide, rfl⟩

/-- HaltRepeatsForever. -/
theorem test_witness_halt :
    (start .ext 0x8000 [0x76]).memRead (start .ext 0x8000 [0x76]).pc = 0x76
    ∧ (start .ext 0x8000 [0x76]).cfg.haltAdvancesPc = false := by decide

/-- HostActionsTouchOneThing and ConstructionSetsEveryField: another address, an invariant state, both modes. -/
theorem test_witness_host :
    (0x0001 : Word) ≠ 0x0000 ∧ (start .ext 0x8000 []).Inv ∧ (testParams .base).mode = .base
    ∧ (testParams .ext).mode = .ext := by decide

end Sys2Proof.Tests
end

section
/-! PROOFS. The pair views (10_state.md R9, R10). Each view is a `wordOf` of two byte registers, so in numbers it is
`wordOf_toNat`; each pair write is the `setPair` of its pair, whose read-back and frame are laws already. -/

namespace Sys2Proof.Machine

/-! ## The views in numbers (R9) -/

theorem State.bc_toNat (s : State) : s.bc.toNat = s.b.toNat * 256 + s.c.toNat := wordOf_toNat s.b s.c

theorem State.de_toNat (s : State) : s.de.toNat = s.d.toNat * 256 + s.e.toNat := wordOf_toNat s.d s.e

theorem State.hl_toNat (s : State) : s.hl.toNat = s.h.toNat * 256 + s.l.toNat := wordOf_toNat s.h s.l

/-! ## Writing a pair (R10) -/

/-- `writePair(BC, w)`, that is `setPair .bc`: both halves in numbers, the read-back, and the frame. -/
theorem State.setBc_spec (s : State) (w : Word) :
    (s.setBc w).b.toNat = w.toNat / 256 ∧ (s.setBc w).c.toNat = w.toNat % 256 ∧ (s.setBc w).bc = w
      ∧ ChangesOnly [.reg .b, .reg .c] s (s.setBc w) :=
  ⟨hiByte_toNat w, loByte_toNat w, s.pair_setPair .bc w, changesOnly_setPair s .bc w⟩

/-- `writePair(DE, w)`, that is `setPair .de`: both halves in numbers, the read-back, and the frame. -/
theorem State.setDe_spec (s : State) (w : Word) :
    (s.setDe w).d.toNat = w.toNat / 256 ∧ (s.setDe w).e.toNat = w.toNat % 256 ∧ (s.setDe w).de = w
      ∧ ChangesOnly [.reg .d, .reg .e] s (s.setDe w) :=
  ⟨hiByte_toNat w, loByte_toNat w, s.pair_setPair .de w, changesOnly_setPair s .de w⟩

/-- `writePair(HL, w)`, that is `setPair .hl`: both halves in numbers, the read-back, and the frame. -/
theorem State.setHl_spec (s : State) (w : Word) :
    (s.setHl w).h.toNat = w.toNat / 256 ∧ (s.setHl w).l.toNat = w.toNat % 256 ∧ (s.setHl w).hl = w
      ∧ ChangesOnly [.reg .h, .reg .l] s (s.setHl w) :=
  ⟨hiByte_toNat w, loByte_toNat w, s.pair_setPair .hl w, changesOnly_setPair s .hl w⟩

/-- Settles O16: after a register write a view is read from the written state, so the number laws of the views hold there
too; a pair write is its `_spec`. -/
theorem pairViewsOfByteRegisters : Obligations.PairViewsOfByteRegisters := by
  refine ⟨fun s => ?read, fun s v => ?registerWrite, fun s w => ?pairWrite⟩
  case read => exact ⟨s.bc_toNat, s.de_toNat, s.hl_toNat⟩
  case registerWrite =>
    exact ⟨(s.setReg .b v).bc_toNat, (s.setReg .c v).bc_toNat, (s.setReg .d v).de_toNat, (s.setReg .e v).de_toNat,
      (s.setReg .h v).hl_toNat, (s.setReg .l v).hl_toNat⟩
  case pairWrite => exact ⟨s.setBc_spec w, s.setDe_spec w, s.setHl_spec w⟩

end Sys2Proof.Machine
end

section
/-! PROOFS. The bus policy, one region at a time (20_memory.md R31 to R34). -/

namespace Sys2Proof.Machine

/-! ## The four cases -/

theorem inWindow_iff {p : Params} {a : Word} : inWindow p a = true ↔ p.windowLo ≤ a ∧ a ≤ p.windowHi :=
  decide_eq_true_iff

section Cases

variable {s : State} {a : Word} {v : Byte}

/-- Below ROM_BOUNDARY the address takes the byte (R31). -/
theorem State.memRead_memWrite_ram (ha : a < s.cfg.romBoundary) (w : Word) :
    (s.memWrite a v).memRead w = if w = a then v else s.memRead w := by
  rw [State.memRead_memWrite, read_busWrite, if_pos ha, State.memRead]

/-- In the ROM area nothing at all changes (R32). -/
theorem State.memWrite_rom (ha : ¬ a < s.cfg.romBoundary) (hw : ¬ inWindow s.cfg a = true) : s.memWrite a v = s := by
  rw [State.memWrite, busWrite, if_neg ha, if_neg hw]

/-- A control word fills the window with its pattern (R33). -/
theorem State.memRead_memWrite_control {p : Pattern} (ha : ¬ a < s.cfg.romBoundary) (hw : inWindow s.cfg a = true)
    (h3 : a.toNat % 4 = 3) (hp : ppiControl s.cfg v = some p) (w : Word) :
    (s.memWrite a v).memRead w = if inWindow s.cfg w = true then patternByte p (w.toNat % 4) else s.memRead w := by
  have control : (if strideOf a = 3 then ppiControl s.cfg v else none) = some p := (if_pos h3).trans hp
  rw [State.memRead_memWrite, read_busWrite, if_neg ha, if_pos hw, control]
  rfl

/-- Any other write in the window follows WINDOW_DATA_WRITE (R34). -/
theorem State.memRead_memWrite_data (ha : ¬ a < s.cfg.romBoundary) (hw : inWindow s.cfg a = true)
    (hc : a.toNat % 4 = 3 → ppiControl s.cfg v = none) (w : Word) :
    (s.memWrite a v).memRead w =
      match s.cfg.windowDataWrite with
      | .discard => s.memRead w
      | .store => if w = a then v else s.memRead w
      | .storeReplicated =>
        if inWindow s.cfg w = true ∧ w.toNat % 4 = a.toNat % 4 then v else s.memRead w := by
  have data : (if strideOf a = 3 then ppiControl s.cfg v else none) = none := ite_eq_right_iff.mpr hc
  rw [State.memRead_memWrite, read_busWrite, if_neg ha, if_pos hw, data]
  cases s.cfg.windowDataWrite with
  | discard => rfl
  | store => rfl
  | storeReplicated => exact (ite_and ..).symm

end Cases

/-! ## The obligations -/

/-- Settles O9, by the RAM case at the address and at another. -/
theorem ramWriteApplies : Obligations.RamWriteApplies := by
  intro s a v ha
  refine ⟨?here, fun w hw => ?elsewhere, changesOnly_memWrite s a v, rfl, rfl⟩
  case here => rw [State.memRead_memWrite_ram ha, if_pos rfl]
  case elsewhere => rw [State.memRead_memWrite_ram ha, if_neg hw]

/-- Settles O10: at the decided parameters the window is 0xF800 to 0xFFFF, so the ROM area ends below 0xF800. -/
theorem romWriteDiscarded : Obligations.RomWriteDiscarded := by
  refine ⟨fun s a v ha hw => ?discarded, fun a => ?area⟩
  case discarded => exact State.memWrite_rom ha (inWindow_iff.not.mpr hw)
  case area =>
    simp only [resetParams]
    bv_omega

/-- Settles O11: inside the window the byte read is `patternByte` of the offset, whose four cases are the pattern's. -/
theorem controlWordFillsWindow : Obligations.ControlWordFillsWindow := by
  intro s a v p ha hlo hhi h3 hp
  have read := State.memRead_memWrite_control ha (inWindow_iff.mpr ⟨hlo, hhi⟩) h3 hp
  refine ⟨fun w hwlo hwhi => ?inside, fun w hw => ?outside, changesOnly_memWrite s a v, rfl, rfl⟩
  case inside =>
    rw [read, if_pos (inWindow_iff.mpr ⟨hwlo, hwhi⟩)]
    refine ⟨fun k => ?_, fun k => ?_, fun k => ?_, fun k => ?_⟩ <;> rw [k] <;> rfl
  case outside => rw [read, if_neg (inWindow_iff.not.mpr hw)]

end Sys2Proof.Machine
end

section
/-! PROOFS. A canonical memory is determined by what it reads (20_memory.md R28; log entry 4): its cells are the keys
with the byte each reads, where that byte is not the unlisted one, and rising keys leave one order for them. -/

namespace Sys2Proof.Machine

/-- A key that reads as anything but the unlisted byte is listed, with that byte. -/
theorem Memory.mem_of_readKey_ne {m : Memory} {k : Nat} (h : m.readKey k ≠ Memory.unlisted) : (k, m.readKey k) ∈ m := by
  induction m with
  | nil => exact absurd rfl h
  | cons c m ih =>
    rw [Memory.readKey_cons] at h ⊢
    split at h
    · next hk => simp [← hk]
    · next hk => simpa [hk] using .inr (ih h)

/-- Where addresses rise, every cell is the one its address reads. -/
theorem Memory.readKey_of_mem {m : Memory} (h : m.Pairwise (fun x y => x.1 < y.1)) {c : Host.Cell} (hc : c ∈ m) :
    m.readKey c.1 = c.2 := by
  induction m with
  | nil => cases hc
  | cons x m ih =>
    obtain ⟨hx, hm⟩ := List.pairwise_cons.mp h
    rw [Memory.readKey_cons]
    rcases List.mem_cons.mp hc with rfl | hc
    · exact if_pos rfl
    · rw [if_neg (Nat.ne_of_lt (hx c hc)), ih hm hc]

/-- Two canonical memories that read the same at every address list the same cells. -/
theorem Memory.mem_of_read_eq {m n : Memory} (hm : m.wf) (h : ∀ a, m.read a = n.read a) {c : Host.Cell} (hc : c ∈ m) :
    c ∈ n := by
  obtain ⟨hlt, hne⟩ := hm.2 c hc
  have hread : n.readKey c.1 = c.2 := by
    have := h (BitVec.ofNat 16 c.1)
    simp only [Memory.read, BitVec.toNat_ofNat, Nat.mod_eq_of_lt hlt] at this
    rw [← this, Memory.readKey_of_mem hm.1 hc]
  have := Memory.mem_of_readKey_ne (m := n) (k := c.1) (hread ▸ hne)
  rwa [hread] at this

/-- Settles O13: both list the same cells, in the one order in which addresses rise. -/
theorem memoryEqualWhenReadsEqual : Obligations.MemoryEqualWhenReadsEqual := by
  intro m n hm hn h
  have : Std.Irrefl (fun x y : Host.Cell => x.1 < y.1) := ⟨fun x => Nat.lt_irrefl x.1⟩
  have : Std.Antisymm (fun x y : Host.Cell => x.1 < y.1) := ⟨fun x y hxy hyx => absurd hxy (Nat.lt_asymm hyx)⟩
  exact List.Pairwise.eq_of_mem_iff hm.1 hn.1 fun c =>
    ⟨Memory.mem_of_read_eq hm h, Memory.mem_of_read_eq hn fun a => (h a).symm⟩

end Sys2Proof.Machine
end

section
/-! PROOFS. What every instruction does to memory (20_memory.md R31 to R35, R42): it offers the bytes of `stores` to the
bus, in order, and touches memory in no other way. The canonical form and the frame of memory follow from the laws of
one bus write. -/

namespace Sys2Proof.Machine

/-! ## A list of bytes offered to the bus -/

/-- The state after the bytes of `xs` are offered to the bus, in order (R35). -/
def State.offer (s : State) (xs : List (Word × Byte)) : State := xs.foldl (fun u x => u.memWrite x.1 x.2) s

@[simp] theorem State.offer_nil (s : State) : s.offer [] = s := rfl

@[simp] theorem State.offer_cons (s : State) (x : Word × Byte) (xs : List (Word × Byte)) :
    s.offer (x :: xs) = (s.memWrite x.1 x.2).offer xs := rfl

/-- Offered bytes keep memory canonical. -/
theorem State.offer_wf {s : State} (h : s.mem.wf) (xs : List (Word × Byte)) : (s.offer xs).mem.wf := by
  induction xs generalizing s with
  | nil => exact h
  | cons x xs ih => exact ih (State.memWrite_wf h x.1 x.2)

/-- One offered byte changes no byte but those of `mayChange`, case by case as the bus policy has them (R31 to R34). -/
theorem State.memRead_memWrite_of_not_mayChange {s : State} {a w : Word} {v : Byte} (h : ¬ mayChange s.cfg a v w) :
    (s.memWrite a v).memRead w = s.memRead w := by
  unfold mayChange at h
  split at h
  case isTrue hram => rw [State.memRead_memWrite_ram hram, if_neg h]
  case isFalse hram =>
    split at h
    case isFalse hwin => rw [State.memWrite_rom hram hwin]
    case isTrue hwin =>
      split at h
      case isTrue hctl =>
        obtain ⟨p, hp⟩ := Option.isSome_iff_exists.mp hctl.2
        rw [State.memRead_memWrite_control hram hwin hctl.1 hp, if_neg h]
      case isFalse hctl =>
        rw [State.memRead_memWrite_data hram hwin fun h3 => Option.not_isSome_iff_eq_none.mp fun hs => hctl ⟨h3, hs⟩]
        cases hpol : s.cfg.windowDataWrite with
        | discard => rfl
        | store => exact if_neg (by simpa [hpol] using h)
        | storeReplicated => exact if_neg (by simpa [hpol] using h)

/-- Offered bytes change no byte but those one of them may change. -/
theorem State.memRead_offer_of_not_mayChange {s : State} {xs : List (Word × Byte)} {w : Word}
    (h : ∀ x ∈ xs, ¬ mayChange s.cfg x.1 x.2 w) : (s.offer xs).memRead w = s.memRead w := by
  induction xs generalizing s with
  | nil => rfl
  | cons x xs ih =>
    obtain ⟨hx, hxs⟩ := List.forall_mem_cons.mp h
    exact (ih (s := s.memWrite x.1 x.2) hxs).trans (State.memRead_memWrite_of_not_mayChange hx)

/-! ## Instructions -/

/-- A conditional instruction ends in the state of the branch its condition takes. -/
theorem next_ite_inj {c : Prop} [Decidable c] {s t u : State}
    (h : (if c then .next s else .next t : Host.Outcome State Fault Refusal) = .next u) : (if c then s else t) = u := by
  split at h
  case isTrue hc => rw [if_pos hc, next_inj h]
  case isFalse hc => rw [if_neg hc, next_inj h]

/-- Memory after an instruction is, as data, memory after the bytes it offers (R35, R42, R69). -/
theorem exec_mem {i : Instr} {s t : State} (h : exec i s = .next t) : t.mem = (s.offer (stores s i)).mem := by
  cases i with
  -- No byte is offered: only a register, a pair or the port input is written.
  | movRR | movRM | mviR | lda | ldax | inrR | dcrR => cases h; exact State.setReg_mem _ _ _
  | lxi | inx | dcx => cases h; exact State.setPair_mem _ _ _
  | pop => cases h; exact State.setStackPair_mem _ _ _
  | inPort v => cases h; exact (State.setReg_mem _ _ _).trans s.portReadDone_mem
  -- Two outcomes, of which only a taken Ccc offers bytes.
  | jcc | rcc | jrCc | djnz | hlt => rw [← next_ite_inj h, apply_ite State.mem]; exact ite_self _
  | ccc cc w =>
    rw [← next_ite_inj h, stores, apply_ite State.mem, apply_ite s.offer, apply_ite State.mem]
    rfl
  -- The bytes offered are halves of a word, or the result of a counting function.
  | shld w => cases h; exact (congrArg State.mem (s.memWrite16_of_hl w) :)
  | xthl => cases h; exact (congrArg State.mem (s.memWrite16_of_hl s.sp) :)
  | inrM => cases h; exact congrArg (fun v => (s.memWrite s.hl v).mem) (inc8_fst _ _ _)
  | dcrM => cases h; exact congrArg (fun v => (s.memWrite s.hl v).mem) (dec8_fst _ _ _)
  | pushPsw => cases h; simp [stores]
  | _ => cases h; rfl

/-- Settles O51: `exec_mem`, byte by byte. -/
theorem memoryAfterOfferedStores : Obligations.MemoryAfterOfferedStores := fun _ _ _ h w =>
  congrArg (Memory.read · w) (exec_mem h)

/-- Settles O52: the bytes of `stores` are all an instruction offers, and each changes what `mayChange` allows. -/
theorem memoryFrameOfStores : Obligations.MemoryFrameOfStores := fun i s t h w hw => calc
  t.memRead w = (s.offer (stores s i)).memRead w := memoryAfterOfferedStores i s t h w
  _ = s.memRead w := State.memRead_offer_of_not_mayChange hw

end Sys2Proof.Machine
end

section
/-! PROOFS. The invariant of every step (10_state.md R16, 20_memory.md R28): memory stays canonical by `exec_mem`, no
instruction changes the parameters, and in BASE none writes f3, f5 or fN. -/

namespace Sys2Proof.Machine

/-- What keeps every flag that R96 does not list for BASE keeps the EXT flags there. -/
theorem keepsExtFlags_of_keeps {m : Mode} (hm : m = .base) {bs es : List FlagName} {f g : Flags}
    (h : ∀ k, Part.flag k ∉ flagParts m bs es → g.get k = f.get k) (hbs : ∀ k ∈ [.f3, .f5, .fN], k ∉ bs := by decide) :
    KeepsExtFlags f g := by
  subst hm
  have key : ∀ k ∈ [.f3, .f5, .fN], g.get k = f.get k := fun k hk => h k (by simpa [flagParts] using hbs k hk)
  exact ⟨key .f3 (by decide), key .f5 (by decide), key .fN (by decide)⟩

/-- `t` has the parameters of `s`, and in BASE its EXT flags. -/
def SameModeFlags (s t : State) : Prop := t.cfg = s.cfg ∧ (s.cfg.mode = .base → KeepsExtFlags s.flags t.flags)

/-- An instruction that writes no flag. -/
theorem SameModeFlags.of_flags {s t : State} (hc : t.cfg = s.cfg) (hf : t.flags = s.flags) : SameModeFlags s t :=
  ⟨hc, fun _ => hf ▸ ⟨rfl, rfl, rfl⟩⟩

/-- An instruction whose flags an ALU function gives, by what that function keeps (R96). -/
theorem SameModeFlags.of_keeps {s t : State} {f : Flags} {bs es : List FlagName} (hc : t.cfg = s.cfg)
    (hf : t.flags = f) (h : ∀ k, Part.flag k ∉ flagParts s.cfg.mode bs es → f.get k = s.flags.get k)
    (hbs : ∀ k ∈ [.f3, .f5, .fN], k ∉ bs := by decide) : SameModeFlags s t :=
  ⟨hc, fun hm => hf ▸ keepsExtFlags_of_keeps hm h hbs⟩

/-- No instruction changes the parameters, or in BASE an EXT flag (R16, R96). -/
theorem exec_sameModeFlags {i : Instr} {s t : State} (h : exec i s = .next t) : SameModeFlags s t := by
  cases i with
  | addR | addM | adi | adcR | adcM | aci => cases h; exact .of_keeps rfl rfl (add8_keeps _ _ _ _ _)
  | subR | subM | sui | sbbR | sbbM | sbi => cases h; exact .of_keeps rfl rfl (sub8_keeps _ _ _ _ _)
  | anaR | anaM | ani | xraR | xraM | xri | oraR | oraM | ori =>
    cases h; exact .of_keeps rfl rfl (logicFlags_keeps _ _ _ _ _ _)
  | cmpR | cmpM | cpi => cases h; exact .of_keeps rfl rfl (cmp8_keeps _ _ _ _)
  | inrR => cases h; exact .of_keeps (State.setReg_cfg _ _ _) (State.setReg_flags _ _ _) (inc8_keeps _ _ _)
  | dcrR => cases h; exact .of_keeps (State.setReg_cfg _ _ _) (State.setReg_flags _ _ _) (dec8_keeps _ _ _)
  | inrM => cases h; exact .of_keeps rfl rfl (inc8_keeps _ _ _)
  | dcrM => cases h; exact .of_keeps rfl rfl (dec8_keeps _ _ _)
  | dad => cases h; exact .of_keeps rfl rfl (add16_keeps _ _ _ _)
  | daa => cases h; exact .of_keeps rfl rfl (daa8_keeps _ _ _)
  | rlc | rrc | ral | rar => cases h; exact .of_keeps rfl rfl (rotateFlags_keeps _ _ _ _ _)
  | cma => cases h; exact .of_keeps rfl rfl (cmaFlags_keeps _ _ _)
  | cmc => cases h; exact .of_keeps rfl rfl (cmcFlags_keeps _ _ _)
  | stc => cases h; exact .of_keeps rfl rfl (stcFlags_keeps _ _ _)
  | popPsw | exAfAf => cases h; exact .of_keeps rfl rfl (unpackFlags_keeps _ _ _)
  -- No flag is written from here on.
  | movRR | movRM | mviR | lda | ldax => cases h; exact .of_flags (State.setReg_cfg _ _ _) (State.setReg_flags _ _ _)
  | lxi | inx | dcx => cases h; exact .of_flags (State.setPair_cfg _ _ _) (State.setPair_flags _ _ _)
  | pop => cases h; exact .of_flags (State.setStackPair_cfg _ _ _) (State.setStackPair_flags _ _ _)
  | inPort v =>
    cases h
    exact .of_flags ((State.setReg_cfg _ _ _).trans s.portReadDone_cfg)
      ((State.setReg_flags _ _ _).trans s.portReadDone_flags)
  | jcc | ccc | rcc | jrCc | djnz | hlt =>
    rw [← next_ite_inj h]
    split <;> exact .of_flags rfl rfl
  | _ => cases h; exact .of_flags rfl rfl

/-- Settles O48: memory is canonical after any offered bytes, and the EXT flags of BASE are kept. -/
theorem stepKeepsInvariant : Obligations.StepKeepsInvariant := by
  intro s t ⟨hwf, hflags⟩ h
  obtain ⟨hcfg, hkeeps⟩ := exec_sameModeFlags (step_eq s ▸ h)
  refine ⟨?canonical, fun hm => ?extFlags⟩
  case canonical =>
    rw [exec_mem (step_eq s ▸ h)]
    exact State.offer_wf hwf _
  case extFlags =>
    rw [hcfg] at hm
    obtain ⟨h3, h5, hN⟩ := hkeeps hm
    rw [h3, h5, hN]
    exact hflags hm

end Sys2Proof.Machine
end

section
/-! PROOFS. Decode and encode agree (30_encoding.md R50 to R62): the length of an encoding is the one its opcode byte
tells, the fields read out of that byte are the ones the encoding wrote, and the operand bytes follow it in their
order. -/

namespace Sys2Proof.Laws.Encoding

/-- The laws of the constructors, as one law of every instruction (R50, R62). -/
theorem statement (i : Instr) : Statement i := by
  cases i <;> simp only [movRR, movRM, movMR, mviR, mviM, lxi, lda, sta, lhld, shld, ldax, stax, xchg, addR, addM, adi,
    adcR, adcM, aci, subR, subM, sui, sbbR, sbbM, sbi, inrR, inrM, dcrR, dcrM, inx, dcx, dad, daa, anaR, anaM, ani,
    xraR, xraM, xri, oraR, oraM, ori, cmpR, cmpM, cpi, rlc, rrc, ral, rar, cma, cmc, stc, jmp, jmpAlias, jcc, call,
    callAlias, ccc, ret, retAlias, rcc, rst, pchl, push, pushPsw, pop, popPsw, xthl, sphl, inPort, outPort, ei, di,
    hlt, nop, nopAlias, exAfAf, exx, djnz, jr, jrCc, prefixCB, prefixDD, prefixED, prefixFD]

end Sys2Proof.Laws.Encoding

namespace Sys2Proof

open Machine (wordOf_halves)

/-! ## The formats (R51) -/

/-- Decoding takes as many bytes as the opcode tells, where all of them are there (R50, R62). -/
theorem decode_cons_append {m : Mode} {op : Byte} {operands : List Byte}
    (hlen : operands.length + 1 = instrLength m op) (rest : List Byte) :
    decode m (op :: operands ++ rest)
      = .ok (decodeOpcode m op ((operands ++ rest).getD 0 0) ((operands ++ rest).getD 1 0), rest) := by
  have enough : ¬ (operands ++ rest).length + 1 < instrLength m op := by
    rw [List.length_append]; omega
  rw [List.cons_append, decode, if_neg enough, ← hlen, Nat.add_sub_cancel, List.drop_left]

/-- Decoding the encoding of `i` in mode `m` gives `i` back, whatever bytes follow. -/
def RoundTrips (m : Mode) (i : Instr) : Prop := ∀ rest : List Byte, decode m (encode i ++ rest) = .ok (i, rest)

section Formats

variable {m : Mode} {op : Byte}

/-- The round trip of an instruction, from the bytes of its encoding. -/
theorem RoundTrips.of_encode {i : Instr} {operands : List Byte} (he : encode i = op :: operands) (hw : i.wf m = true)
    (h : ∀ rest, decodeOpcode m op ((operands ++ rest).getD 0 0) ((operands ++ rest).getD 1 0) = i) :
    RoundTrips m i := by
  intro rest
  obtain ⟨hlen, -, -⟩ := Laws.Encoding.statement i m hw
  rw [he] at hlen ⊢
  rw [decode_cons_append (op := op) hlen, h]

/-- Format F1, the opcode alone: the bytes that follow it are not read. -/
theorem RoundTrips.of_opcode {i : Instr} (hw : i.wf m = true) (he : encode i = [op])
    (h : ∀ b1 b2, decodeOpcode m op b1 b2 = i) : RoundTrips m i :=
  .of_encode he hw fun _ => h _ _

/-- Formats F2I and F2D: the byte after the opcode is the operand. -/
theorem RoundTrips.of_byte {f : Byte → Instr} {v : Byte} (hw : (f v).wf m = true) (he : encode (f v) = [op, v])
    (h : ∀ b1 b2, decodeOpcode m op b1 b2 = f b1) : RoundTrips m (f v) :=
  .of_encode he hw fun _ => h _ _

/-- Format F3: the bytes after the opcode are the halves of the operand, low byte first (R55). -/
theorem RoundTrips.of_word {f : Word → Instr} {w : Word} (hw : (f w).wf m = true) (he : encode (f w) = encodeWord op w)
    (h : ∀ b1 b2, decodeOpcode m op b1 b2 = f (Machine.wordOf b2 b1)) : RoundTrips m (f w) :=
  .of_encode he hw fun _ => (h _ _).trans (congrArg f (wordOf_halves w))

end Formats

/-! ## Every instruction -/

/-- Every instruction of a mode's table has one of these formats, and its opcode byte decodes to it (R52 to R59). -/
theorem roundTrips {m : Mode} {i : Instr} (hw : i.wf m = true) : RoundTrips m i := by
  cases i with
  -- A field of the opcode byte is read back as the operand whose code it holds, one operand at a time.
  | movRR dst src => cases dst <;> cases src <;> exact .of_opcode hw rfl fun _ _ => rfl
  | movRM r | movMR r | addR r | adcR r | subR r | sbbR r | anaR r | xraR r | oraR r | cmpR r | inrR r | dcrR r =>
    cases r <;> exact .of_opcode hw rfl fun _ _ => rfl
  | inx p | dcx p | dad p | ldax p | stax p | push p | pop p => cases p <;> exact .of_opcode hw rfl fun _ _ => rfl
  | rcc cc => cases cc <;> exact .of_opcode hw rfl fun _ _ => rfl
  | mviR r v => cases r <;> exact .of_byte hw rfl fun _ _ => rfl
  | lxi p w => cases p <;> exact .of_word hw rfl fun _ _ => rfl
  | jcc cc w | ccc cc w => cases cc <;> exact .of_word hw rfl fun _ _ => rfl
  | rst n => obtain ⟨n⟩ := n; fin_cases n <;> exact .of_opcode hw rfl fun _ _ => rfl
  -- Cells that both modes decode alike.
  | mviM | adi | aci | sui | sbi | ani | xri | ori | cpi | inPort | outPort => exact .of_byte hw rfl fun _ _ => rfl
  | lda | sta | lhld | shld | jmp | call => exact .of_word hw rfl fun _ _ => rfl
  -- Cells of BASE alone: the duplicates of R59, whose number is not 0.
  | jmpAlias => obtain rfl : m = .base := eq_of_beq hw; exact .of_word hw rfl fun _ _ => rfl
  | retAlias => obtain rfl : m = .base := eq_of_beq hw; exact .of_opcode hw rfl fun _ _ => rfl
  | nopAlias k =>
    obtain ⟨rfl, hk⟩ : m = .base ∧ k ≠ 0 := by simpa [Instr.wf] using hw
    obtain ⟨k⟩ := k
    fin_cases k
    · exact absurd rfl hk
    all_goals exact .of_opcode hw rfl fun _ _ => rfl
  | callAlias k w =>
    obtain ⟨rfl, hk⟩ : m = .base ∧ k ≠ 0 := by simpa [Instr.wf] using hw
    obtain ⟨k⟩ := k
    fin_cases k
    · exact absurd rfl hk
    all_goals exact .of_word hw rfl fun _ _ => rfl
  -- Cells of EXT alone.
  | exAfAf | exx | prefixCB | prefixDD | prefixED | prefixFD =>
    obtain rfl : m = .ext := eq_of_beq hw
    exact .of_opcode hw rfl fun _ _ => rfl
  | djnz | jr => obtain rfl : m = .ext := eq_of_beq hw; exact .of_byte hw rfl fun _ _ => rfl
  | jrCc cc => obtain rfl : m = .ext := eq_of_beq hw; cases cc <;> exact .of_byte hw rfl fun _ _ => rfl
  | _ => exact .of_opcode hw rfl fun _ _ => rfl

/-- Settles O1: `roundTrips`, for each sequence of bytes that follows. -/
theorem decodeEncodeRoundTrip : Obligations.DecodeEncodeRoundTrip := fun _ _ rest hw => roundTrips hw rest

end Sys2Proof
end

section
/-! PROOFS. No encoding is illegal (30_encoding.md R60): every cell of either dispatch table holds an instruction of its
mode, every instruction completes in every state, and the bytes 0xCB, 0xDD, 0xED and 0xFD do nothing in EXT but end. -/

namespace Sys2Proof

/-! ## Every cell holds an instruction of its mode

One lemma per quarter of the map (R52). Only the cells of R58 and R59 ask for the mode, or for a duplicate's number. -/

/-- Bits 5:3 of a duplicate of NOP are not 0 (R59). -/
theorem Instr.wf_nopAlias {y : BitVec 3} (hy : y.toNat = 0 → False) : (Instr.nopAlias y).wf .base = true :=
  bne_iff_ne.mpr fun h => hy (congrArg BitVec.toNat h)

/-- Bits 5:4 of a duplicate of CALL are not 0 (R59). -/
theorem Instr.wf_callAlias {p : BitVec 2} (hp : p.toNat = 0 → False) (w : Word) :
    (Instr.callAlias p w).wf .base = true :=
  bne_iff_ne.mpr fun h => hp (congrArg BitVec.toNat h)

theorem decodeGroup0_wf (m : Mode) (y z : BitVec 3) (b1 b2 : Byte) : (decodeGroup0 m y z b1 b2).wf m = true := by
  unfold decodeGroup0
  dsimp only
  split
  -- Column 0, NOP with its duplicates in BASE; in EXT the other seven cells.
  case h_1 =>
    split
    case h_2 hy => exact Instr.wf_nopAlias hy
    all_goals rfl
  all_goals (split <;> rfl)

theorem decodeGroup1_wf (m : Mode) (y z : BitVec 3) : (decodeGroup1 y z).wf m = true := by
  unfold decodeGroup1
  split <;> rfl

theorem decodeGroup2_wf (m : Mode) (y z : BitVec 3) : (decodeGroup2 y z).wf m = true := by
  unfold decodeGroup2
  split <;> rfl

theorem decodeGroup3_wf (m : Mode) (y z : BitVec 3) (b1 b2 : Byte) : (decodeGroup3 m y z b1 b2).wf m = true := by
  unfold decodeGroup3
  dsimp only
  split
  -- POP, RET, PCHL, SPHL, and the cell 0xD9.
  case h_2 =>
    split
    case h_1 => split <;> rfl
    case h_3 => cases m <;> rfl
    all_goals rfl
  -- JMP and its column, with the cell 0xCB.
  case h_4 =>
    split
    case h_2 => cases m <;> rfl
    all_goals rfl
  -- PUSH, CALL, and the cells 0xDD, 0xED and 0xFD.
  case h_6 =>
    split
    case h_1 => split <;> rfl
    case h_3 hp => exact Instr.wf_callAlias hp _
    all_goals rfl
  -- The ALU with an immediate byte.
  case h_7 => split <;> rfl
  all_goals rfl

theorem decodeOpcode_wf (m : Mode) (op b1 b2 : Byte) : (decodeOpcode m op b1 b2).wf m = true := by
  unfold decodeOpcode
  split
  · exact decodeGroup0_wf ..
  · exact decodeGroup1_wf ..
  · exact decodeGroup2_wf ..
  · exact decodeGroup3_wf ..

end Sys2Proof

namespace Sys2Proof.Machine

/-! ## Every instruction completes -/

/-- An instruction with two outcomes completes, whichever its condition takes. -/
theorem ite_next_completes (c : Prop) [Decidable c] (s t : State) :
    ∃ u, (if c then .next s else .next t : Host.Outcome State Fault Refusal) = .next u :=
  ⟨if c then s else t, (apply_ite ..).symm⟩

/-- Every instruction completes in every state (60_exceptions.md R181). -/
theorem exec_completes (i : Instr) (s : State) : ∃ t, exec i s = .next t := by
  cases i with
  | jcc | ccc | rcc | djnz | jrCc | hlt => exact ite_next_completes ..
  | _ => exact ⟨_, rfl⟩

/-! ## 0xCB, 0xDD, 0xED and 0xFD in EXT -/

/-- Each of the four ends as an instruction of one byte does, and does nothing else (R178). -/
theorem exec_prefixByte {op : Byte} (hop : op.toNat ∈ [0xCB, 0xDD, 0xED, 0xFD]) (b1 b2 : Byte) (s : State) :
    exec (decodeOpcode .ext op b1 b2) s = .next (s.advance (decodeOpcode .ext op b1 b2) 1) := by
  have cells : op ∈ [0xCB, 0xDD, 0xED, 0xFD] := by revert op; decide
  simp only [List.mem_cons, List.not_mem_nil, or_false] at cells
  rcases cells with rfl | rfl | rfl | rfl <;> rfl

/-- Settles O8: decoding stays in the table of the mode, `exec` completes on every instruction, and the
four bytes without effects only advance. -/
theorem everyOpcodeCompletes : Obligations.EveryOpcodeCompletes :=
  ⟨fun m op b1 b2 => ⟨decodeOpcode_wf m op b1 b2, fun s => exec_completes _ s⟩, fun s => exec_completes _ s,
    fun _ b1 b2 s hop => ⟨_, exec_prefixByte hop b1 b2 s, changesOnly_advance s _ 1, rfl⟩⟩

end Sys2Proof.Machine
end

section
/-! PROOFS. The execution driver (40_execution_driver.md): a step is the meaning of what decodes at PC (R64 to R66, R69),
and what each host action touches between two steps (R73). -/

namespace Sys2Proof

/-- A decoded instruction is the cell of its opcode byte, with the two bytes that follow as its operands. -/
theorem decodeOpcode_of_decode {m : Mode} {op : Byte} {bs rest : List Byte} {i : Instr}
    (h : decode m (op :: bs) = .ok (i, rest)) : decodeOpcode m op (bs.getD 0 0) (bs.getD 1 0) = i := by
  rw [decode] at h
  split at h
  case isTrue => cases h
  case isFalse => cases h; rfl

end Sys2Proof

namespace Sys2Proof.Machine

/-! ## The step (R66) -/

/-- The fetch gives the instruction that decodes from the three bytes at PC. -/
theorem State.fetch_of_decode {s : State} {i : Instr} {rest : List Byte}
    (h : decode s.cfg.mode [s.memRead s.pc, s.memRead (s.pc + 1), s.memRead (s.pc + 2)] = .ok (i, rest)) :
    s.fetch = i :=
  s.fetch_eq.trans (decodeOpcode_of_decode h)

/-- Settles O7: the fetch gives the decoded instruction, and a step is the meaning of what it fetches. -/
theorem stepRunsDecodedInstruction : Obligations.StepRunsDecodedInstruction := by
  intro s i rest h _
  rw [step_eq, State.fetch_of_decode h]

/-! ## The host's actions (R73) -/

theorem changesOnly_hostResetTicks (s : State) : ChangesOnly [] s s.hostResetTicks := .of_pc_ticks rfl

theorem changesOnly_hostWriteMem (s : State) (a : Word) (v : Byte) : ChangesOnly [.mem] s (s.hostWriteMem a v) := by
  intro p hp
  cases p with
  | mem => exact absurd (List.mem_singleton.2 rfl) hp
  | portInput => exact ⟨rfl, rfl⟩
  | _ => rfl

theorem changesOnly_hostAnswerPort (s : State) (v : Byte) : ChangesOnly [.portInput] s (s.hostAnswerPort v) := by
  intro p hp
  cases p with
  | portInput => exact absurd (List.mem_singleton.2 rfl) hp
  | mem => exact fun _ => rfl
  | _ => rfl

/-- Every host action keeps the invariant: a direct write keeps memory canonical, and none reaches the flags or the
parameters. -/
theorem State.hostAct_inv {s : State} (h : s.Inv) (x : HostAction) : (s.hostAct x).Inv := by
  obtain ⟨hwf, hflags⟩ := h
  cases x with
  | resetTicks => exact ⟨hwf, hflags⟩
  | writeMem a v => exact ⟨Memory.wf_write hwf a v, hflags⟩
  | answerPort v => exact ⟨hwf, hflags⟩

/-- Settles O59: the frame of each action, the laws of one memory write, and `hostAct_inv`. -/
theorem hostActionsTouchOneThing : Obligations.HostActionsTouchOneThing := by
  refine fun s => ⟨?resetTicks, fun a v => ?writeMem, fun v => ?answerPort, fun x h => State.hostAct_inv h x⟩
  case resetTicks => exact ⟨rfl, rfl, changesOnly_hostResetTicks s⟩
  case writeMem =>
    exact ⟨s.mem.read_write_same a v, fun _ => s.mem.read_write_other v, rfl, rfl, changesOnly_hostWriteMem s a v⟩
  case answerPort => exact ⟨rfl, rfl, rfl, changesOnly_hostAnswerPort s v⟩

end Sys2Proof.Machine
end

section
/-! PROOFS. Addition in numbers (41_alu_flag_engine.md R77, R79, R81): each flag `add8` computes from bits is a
comparison of sums, and ADD, ADI, ADC and ACI write what `add8` gives (43_arithmetic.md R113 to R118). -/

namespace Sys2Proof.Machine

/-! ## Bits of a byte in numbers -/

theorem bitOf_toNat (v : Byte) (k : Nat) : (bitOf v k).toNat = v.toNat / 2 ^ k % 2 := Nat.toNat_testBit v.toNat k

theorem bitOf_seven_iff (v : Byte) : bitOf v 7 = true ↔ 128 ≤ v.toNat := by
  have := v.isLt
  rw [bitOf_eq, decide_eq_true_iff]
  omega

theorem beq_zero_iff_toNat (v : Byte) : (v == 0) = true ↔ v.toNat = 0 := beq_iff_eq.trans BitVec.toNat_inj.symm

theorem parity_iff (v : Byte) : parity v = true ↔ popcount v % 2 = 0 := beq_iff_eq

/-! ## The half-carry (R76, R77) -/

/-- The index holds bit 3 of each operand and of the result, the first operand's highest (R76). -/
theorem hcIndex_eq (a b r : Byte) :
    hcIndex a b r = 4 * (bitOf a 3).toNat + 2 * (bitOf b 3).toNat + (bitOf r 3).toNat := by
  have first : ∀ x : Byte, (x &&& 0x88) >>> 1 &&& 7 = if bitOf x 3 then 4 else 0 := by decide
  have second : ∀ x : Byte, (x &&& 0x88) >>> 2 &&& 7 = if bitOf x 3 then 2 else 0 := by decide
  have third : ∀ x : Byte, (x &&& 0x88) >>> 3 &&& 7 = if bitOf x 3 then 1 else 0 := by decide
  rw [hcIndex, BitVec.and_or_distrib_right, BitVec.and_or_distrib_right, first, second, third]
  cases bitOf a 3 <;> cases bitOf b 3 <;> cases bitOf r 3 <;> rfl

/-- ADD_HC holds where the operands' bits sum to more than the result's bit: bit 3 has carried out (R77). -/
theorem addHc_bits_iff (x y z : Bool) :
    addHc (4 * x.toNat + 2 * y.toNat + z.toNat) = true ↔ z.toNat < x.toNat + y.toNat := by
  cases x <;> cases y <;> cases z <;> decide

/-- ADD_HC at the index of a sum is the carry out of the low nibble (R77). -/
theorem addHc_hcIndex_iff (a b : Byte) (cin : Bool) :
    addHc (hcIndex a b (BitVec.ofNat 8 (a.toNat + b.toNat + cin.toNat))) = true ↔
      16 ≤ a.toNat % 16 + b.toNat % 16 + cin.toNat := by
  have := cin.toNat_le
  rw [hcIndex_eq, addHc_bits_iff, bitOf_toNat, bitOf_toNat, bitOf_toNat, BitVec.toNat_ofNat]
  omega

/-! ## Carry and overflow (R79, R81) -/

/-- Bit 8 of a sum of two bytes and a carry is the carry out of it (R79). -/
theorem testBit_eight_iff (a b : Byte) (cin : Bool) :
    (a.toNat + b.toNat + cin.toNat).testBit 8 = true ↔ 256 ≤ a.toNat + b.toNat + cin.toNat := by
  have := cin.toNat_le
  rw [Nat.testBit_eq_decide_div_mod_eq, decide_eq_true_iff]
  omega

/-- Masking with 0x80 leaves the sign bit. -/
theorem and_0x80_eq_zero (x : Byte) : ((x &&& 0x80) == 0) = !x.msb := by
  revert x
  decide

/-- Signed overflow of a sum: the operands agree in sign and the result does not (R81). -/
theorem addOverflow_iff (a b : Byte) (cin : Bool) :
    (((a ^^^ b) &&& 0x80) == 0 && ((a ^^^ BitVec.ofNat 8 (a.toNat + b.toNat + cin.toNat)) &&& 0x80) != 0) = true ↔
      a.toInt + b.toInt + (cin.toNat : Int) < -128 ∨ 127 < a.toInt + b.toInt + (cin.toNat : Int) := by
  have := cin.toNat_le
  rw [bne, and_0x80_eq_zero, and_0x80_eq_zero, BitVec.msb_xor, BitVec.msb_xor, Bool.not_not,
    BitVec.toInt_eq_msb_cond a, BitVec.toInt_eq_msb_cond b]
  simp only [BitVec.msb_eq_decide, BitVec.toNat_ofNat]
  -- Operands of one sign leave the range exactly where the sign is lost; operands of two signs never do.
  by_cases ha : 128 ≤ a.toNat <;> by_cases hb : 128 ≤ b.toNat <;> simp [ha, hb] <;> omega

/-! ## The sum -/

/-- `add8` gives the sum and its flags, whatever the flag rules (R79, R81). -/
theorem isSum_add8 (m : FlagRules) (f : Flags) (a b : Byte) (cin : Bool) :
    IsSum m f a b cin (add8 m f a b cin).1 (add8 m f a b cin).2 := by
  have sum : (add8 m f a b cin).1.toNat = (a.toNat + b.toNat + cin.toNat) % 256 := by
    rw [add8_fst, BitVec.toNat_ofNat]
  cases m with
  | base =>
    exact ⟨sum, bitOf_seven_iff _, beq_zero_iff_toNat _, addHc_hcIndex_iff a b cin, testBit_eight_iff a b cin,
      parity_iff _, rfl, rfl, rfl⟩
  | ext x =>
    refine ⟨sum, bitOf_seven_iff _, beq_zero_iff_toNat _, addHc_hcIndex_iff a b cin, testBit_eight_iff a b cin, ?_⟩
    rintro rfl
    exact ⟨addOverflow_iff a b cin, rfl, rfl, rfl⟩

/-- An instruction that writes the sum to A, writes its flags, and ends after its length, at its cell of the decided
tables. -/
theorem exec_add {s : State} {i : Instr} {x : Byte} {cin : Bool} {len : Word} {cost : Nat}
    (h : exec i s = .next ((s.setAcc (add8 s.cfg.flagRules s.flags s.a x cin)).advance i len))
    (hc : DecidedCells i.opcode (cost, cost) (cost, cost)) :
    ∃ t, exec i s = .next t ∧ IsSum s.cfg.flagRules s.flags s.a x cin t.a t.flags
      ∧ EndsAt s t (s.pc + len) cost cost :=
  ⟨_, h, isSum_add8 _ _ _ _ _, endsAt_advance hc rfl rfl rfl len⟩

/-- Settles O25: each of the six is an `exec_add`, with its operand, its carry in and its cell. -/
theorem addInstructions : Obligations.AddInstructions := by
  intro s
  refine ⟨fun r => ?addR, ?addM, fun v => ?adi, fun r => ?adcR, ?adcM, fun v => ?aci⟩
  case addR => exact exec_add rfl (decidedCells_addR r)
  case addM => exact exec_add rfl decidedCells_addM
  case adi => exact exec_add rfl (decidedCells_adi v)
  case adcR => exact exec_add rfl (decidedCells_adcR r)
  case adcM => exact exec_add rfl decidedCells_adcM
  case aci => exact exec_add rfl (decidedCells_aci v)

end Sys2Proof.Machine
end

section
/-! PROOFS. Relative jumps (41_alu_flag_engine.md R94, R95; 47_extended_mode.md R175 to R177): the target in numbers,
and how a transfer of EXT alone ends, taken and not. -/

namespace Sys2Proof.Machine

/-! ## Targets and conditions -/

/-- The target is the address after the instruction plus the signed displacement, modulo 65,536 (R95). -/
theorem State.relTarget_toNat (s : State) (d : Byte) :
    ((s.relTarget d).toNat : Int) = ((s.pc.toNat : Int) + 2 + d.toInt) % 65536 := by
  have two : (2 : Word).toNat = 2 := rfl
  rw [State.relTarget, sdisp_eq_toInt, BitVec.toNat_add, BitVec.toNat_add, BitVec.toNat_ofInt, two]
  omega

/-- JR cc tests what the conditional transfers test at the same field (R94). -/
theorem jrCondHolds_jrCondOf (f : Flags) (q : BitVec 2) :
    jrCondHolds f (jrCondOf q) = condHolds f (condOf (BitVec.setWidth 3 q)) := by
  obtain ⟨q⟩ := q
  fin_cases q <;> rfl

/-! ## The two ends of a relative jump (R67, R202) -/

section Ends

variable {s t : State} {i : Instr} {c : Nat × Nat}

/-- Taken, a jump of EXT goes to the target and pays the first number of its cell. -/
theorem jumpTo_relTarget_ext (hc : DecidedExtCell i.opcode c) (hm : s.cfg.mode = .ext) (ht : t.ticks = s.ticks)
    (hcfg : t.cfg = s.cfg) (d : Byte) :
    ((t.jumpTo i (s.relTarget d)).pc.toNat : Int) = ((s.pc.toNat : Int) + 2 + d.toInt) % 65536
      ∧ (DecidedTicks s.cfg → (t.jumpTo i (s.relTarget d)).ticks = s.ticks + c.1) :=
  ⟨s.relTarget_toNat d,
    fun h => by rw [State.jumpTo_ticks, State.cost_of_cfg hcfg, ht, State.cost_ext h hm hc]; rfl⟩

/-- Not taken, a conditional transfer of EXT ends after its length and pays the second number of its cell. -/
theorem fallThrough_ext (hc : DecidedExtCell i.opcode c) (hm : s.cfg.mode = .ext) (hpc : t.pc = s.pc)
    (ht : t.ticks = s.ticks) (hcfg : t.cfg = s.cfg) (len : Word) :
    (t.fallThrough i len).pc = s.pc + len
      ∧ (DecidedTicks s.cfg → (t.fallThrough i len).ticks = s.ticks + c.2) :=
  ⟨congrArg (· + len) hpc,
    fun h => by rw [State.fallThrough_ticks, State.cost_of_cfg hcfg, ht, State.cost_ext h hm hc]; rfl⟩

end Ends

/-! ## The obligation -/

/-- DJNZ counts B down modulo 256 (R175). -/
theorem byte_sub_one_toNat (v : Byte) : (v - 1).toNat = (v.toNat + 255) % 256 := by
  rw [BitVec.toNat_sub]
  exact congrArg (· % 256) (Nat.add_comm ..)

/-- Settles O45: DJNZ by the new B, JR outright and JR cc by its condition end in one of the two ways. -/
theorem relativeJumpInstructions : Obligations.RelativeJumpInstructions := by
  intro s d hm
  refine ⟨?djnz, ?jr, fun q => ?jrCc⟩
  case djnz =>
    have cell := decidedExtCell_djnz d
    by_cases hb : s.b - 1 = 0
    · exact ⟨_, if_pos hb, byte_sub_one_toNat s.b, rfl, fun h => absurd (congrArg BitVec.toNat hb) h,
        fun _ => fallThrough_ext cell hm rfl rfl rfl 2⟩
    · exact ⟨_, if_neg hb, byte_sub_one_toNat s.b, rfl, fun _ => jumpTo_relTarget_ext cell hm rfl rfl d,
        fun h => absurd (BitVec.eq_of_toNat_eq h) hb⟩
  case jr =>
    exact ⟨_, rfl, changesOnly_jumpTo _ _ _, jumpTo_relTarget_ext (decidedExtCell_jr d) hm rfl rfl d⟩
  case jrCc =>
    have cell := decidedExtCell_jrCc (jrCondOf q) d
    rw [← jrCondHolds_jrCondOf]
    by_cases hq : jrCondHolds s.flags (jrCondOf q) = true
    · exact ⟨_, if_pos hq, changesOnly_jumpTo _ _ _, fun _ => jumpTo_relTarget_ext cell hm rfl rfl d,
        fun h => absurd hq (Bool.eq_false_iff.mp h)⟩
    · exact ⟨_, if_neg hq, changesOnly_fallThrough _ _ _, fun h => absurd h hq,
        fun _ => fallThrough_ext cell hm rfl rfl rfl 2⟩

end Sys2Proof.Machine
end

section
/-! PROOFS. The data transfer instructions (42_data_transfer.md; SPHL and XTHL of 46_stack_io_control.md): each writes a
register, a pair or one or two bytes of memory, and ends after its length at its cell of the decided tables. -/

namespace Sys2Proof.Machine

section Shapes

variable {s : State} {i : Instr} {len : Word} {base ext : Nat}

/-- An instruction that writes a register writes no other one (R53). -/
theorem exec_setReg {r : Reg} {v : Byte} (h : exec i s = .next ((s.setReg r v).advance i len))
    (hc : DecidedCells i.opcode (base, base) (ext, ext)) :
    ∃ t, exec i s = .next t ∧ t.reg r = v ∧ (∀ q, q ≠ r → t.reg q = s.reg q) ∧ EndsAt s t (s.pc + len) base ext := by
  refine ⟨_, h, ?written, fun q hq => ?others, ?ends⟩
  case written => rw [State.advance_reg, State.reg_setReg_same]
  case others => rw [State.advance_reg, State.reg_setReg_other s r q v hq]
  case ends => exact endsAt_advance hc (State.setReg_pc _ _ _) (State.setReg_ticks _ _ _) (State.setReg_cfg _ _ _) len

/-- The same of A, as the accumulator loads state it. -/
theorem exec_setReg_a {v : Byte} (h : exec i s = .next ((s.setReg .a v).advance i len))
    (hc : DecidedCells i.opcode (base, base) (ext, ext)) :
    ∃ t, exec i s = .next t ∧ t.a = v ∧ EndsAt s t (s.pc + len) base ext := by
  obtain ⟨t, ht, ha, -, hend⟩ := exec_setReg h hc
  exact ⟨t, ht, ha, hend⟩

/-- An instruction that stores a byte leaves the memory the bus leaves (R35). -/
theorem exec_memWrite {a : Word} {v : Byte} (h : exec i s = .next ((s.memWrite a v).advance i len))
    (hc : DecidedCells i.opcode (base, base) (ext, ext)) :
    ∃ t, exec i s = .next t ∧ (∀ w, t.memRead w = (s.memWrite a v).memRead w) ∧ EndsAt s t (s.pc + len) base ext :=
  ⟨_, h, State.advance_memRead _ i len, endsAt_advance hc rfl rfl rfl len⟩

end Shapes

/-- LXI: the pair reads as the word, its halves in the two registers (R105). -/
theorem exec_lxi (s : State) (p : RegPair) (w : Word) :
    ∃ t, exec (.lxi p w) s = .next t ∧ t.pair p = w
      ∧ (p = .bc → t.b.toNat = w.toNat / 256 ∧ t.c.toNat = w.toNat % 256)
      ∧ (p = .de → t.d.toNat = w.toNat / 256 ∧ t.e.toNat = w.toNat % 256)
      ∧ (p = .hl → t.h.toNat = w.toNat / 256 ∧ t.l.toNat = w.toNat % 256)
      ∧ EndsAt s t (s.pc + 3) 10 10 := by
  have halves : (hiByte w).toNat = w.toNat / 256 ∧ (loByte w).toNat = w.toNat % 256 := ⟨hiByte_toNat w, loByte_toNat w⟩
  refine ⟨_, rfl, ?pair, ?bc, ?de, ?hl, ?ends⟩
  case pair => exact s.pair_setPair p w
  case bc => rintro rfl; exact halves
  case de => rintro rfl; exact halves
  case hl => rintro rfl; exact halves
  case ends =>
    exact endsAt_advance (decidedCells_lxi p w) (State.setPair_pc _ _ _) (State.setPair_ticks _ _ _)
      (State.setPair_cfg _ _ _) 3

/-- Memory after a word write from HL: L offered at the address, then H at the next (R109, R165). -/
theorem State.memRead_memWrite16_of_hl (s : State) (a w : Word) :
    (s.memWrite16 a s.hl).memRead w = ((s.memWrite a s.l).memWrite (a + 1) s.h).memRead w := by
  rw [State.memWrite16_of_hl]

/-- Settles O20: each form is an `exec_setReg`, with its source and its cell. -/
theorem moveInstructions : Obligations.MoveInstructions := by
  intro s dst
  refine ⟨fun src => ?movRR, ?movRM, fun v => ?mviR⟩
  case movRR => exact exec_setReg rfl (decidedCells_movRR dst src)
  case movRM => exact exec_setReg rfl (decidedCells_movRM dst)
  case mviR => exact exec_setReg rfl (decidedCells_mviR dst v)

/-- Settles O21: each form is an `exec_memWrite`, with its address, its byte and its cell. -/
theorem byteStoreInstructions : Obligations.ByteStoreInstructions := by
  intro s
  refine ⟨fun src => ?movMR, fun v => ?mviM, fun a => ?sta, ?staxBc, ?staxDe⟩
  case movMR => exact exec_memWrite rfl (decidedCells_movMR src)
  case mviM => exact exec_memWrite rfl (decidedCells_mviM v)
  case sta => exact exec_memWrite rfl (decidedCells_sta a)
  case staxBc => exact exec_memWrite rfl (decidedCells_stax .bc)
  case staxDe => exact exec_memWrite rfl (decidedCells_stax .de)

/-- Settles O22: each form is an `exec_setReg_a`, with its address and its cell. -/
theorem accumulatorLoadInstructions : Obligations.AccumulatorLoadInstructions := by
  intro s
  refine ⟨fun w => ?lda, ?ldaxBc, ?ldaxDe⟩
  case lda => exact exec_setReg_a rfl (decidedCells_lda w)
  case ldaxBc => exact exec_setReg_a rfl (decidedCells_ldax .bc)
  case ldaxDe => exact exec_setReg_a rfl (decidedCells_ldax .de)

/-- Settles O23: the halves of the word LHLD reads, HL in numbers for SPHL, and the halves of DE and HL for XCHG. -/
theorem wordLoadInstructions : Obligations.WordLoadInstructions := by
  refine fun s => ⟨fun p w => exec_lxi s p w, fun w => ?lhld, ?sphl, ?xchg⟩
  case lhld =>
    exact ⟨_, rfl, s.loByte_memRead16 w, s.hiByte_memRead16 w, endsAt_advance (decidedCells_lhld w) rfl rfl rfl 3⟩
  case sphl => exact ⟨_, rfl, s.hl_toNat, endsAt_advance decidedCells_sphl rfl rfl rfl 1⟩
  case xchg =>
    exact ⟨_, rfl, hiByte_wordOf s.d s.e, loByte_wordOf s.d s.e, hiByte_wordOf s.h s.l, loByte_wordOf s.h s.l,
      endsAt_advance decidedCells_xchg rfl rfl rfl 1⟩

/-- Settles O24: a word write from HL is L offered and then H, and XTHL reads its word before it writes. -/
theorem wordStoreInstructions : Obligations.WordStoreInstructions := by
  refine fun s => ⟨fun a => ?shld, ?xthl⟩
  case shld =>
    exact ⟨_, rfl, s.memRead_memWrite16_of_hl a,
      endsAt_advance (decidedCells_shld a) rfl rfl rfl 3⟩
  case xthl =>
    exact ⟨_, rfl, s.loByte_memRead16 s.sp, s.hiByte_memRead16 s.sp, rfl,
      s.memRead_memWrite16_of_hl s.sp, endsAt_advance decidedCells_xthl rfl rfl rfl 1⟩

end Sys2Proof.Machine
end

section
/-! PROOFS. Subtraction in numbers (41_alu_flag_engine.md R78, R80, R82): each flag `sub8` computes from bits is a
comparison of numbers, and SUB, SUI, SBB and SBI write what `sub8` gives (43_arithmetic.md R119 to R124). -/

namespace Sys2Proof.Machine

/-- SUB_HB holds where the first operand's bit is less than the other two together: bit 3 has borrowed (R78). -/
theorem subHb_bits_iff (x y z : Bool) :
    subHb (4 * x.toNat + 2 * y.toNat + z.toNat) = true ↔ x.toNat < y.toNat + z.toNat := by
  cases x <;> cases y <;> cases z <;> decide

/-- SUB_HB at the index of a difference is the borrow out of the low nibble (R78). -/
theorem subHb_hcIndex_iff (a b : Byte) (bin : Bool) :
    subHb (hcIndex a b (BitVec.ofInt 8 ((a.toNat : Int) - (b.toNat : Int) - (bin.toNat : Int)))) = true ↔
      a.toNat % 16 < b.toNat % 16 + bin.toNat := by
  have := bin.toNat_le
  rw [hcIndex_eq, subHb_bits_iff, bitOf_toNat, bitOf_toNat, bitOf_toNat, BitVec.toNat_ofInt]
  omega

/-- Its inverse, the half-carry of BASE, is that nothing borrows out of the low nibble (R78). -/
theorem not_subHb_hcIndex_iff (a b : Byte) (bin : Bool) :
    (!subHb (hcIndex a b (BitVec.ofInt 8 ((a.toNat : Int) - (b.toNat : Int) - (bin.toNat : Int))))) = true ↔
      b.toNat % 16 + bin.toNat ≤ a.toNat % 16 := by
  rw [Bool.not_eq_true', ← Bool.not_eq_true, subHb_hcIndex_iff, Nat.not_lt]

/-- A difference is negative where it borrows (R80). -/
theorem difference_neg_iff (a b : Byte) (bin : Bool) :
    decide ((a.toNat : Int) - (b.toNat : Int) - (bin.toNat : Int) < 0) = true ↔ a.toNat < b.toNat + bin.toNat := by
  rw [decide_eq_true_iff]
  omega

/-- Signed overflow of a difference: the operands differ in sign and the result has not the first one's (R82). -/
theorem subOverflow_iff (a b : Byte) (bin : Bool) :
    (((a ^^^ b) &&& 0x80) != 0
        && ((a ^^^ BitVec.ofInt 8 ((a.toNat : Int) - (b.toNat : Int) - (bin.toNat : Int))) &&& 0x80) != 0) = true ↔
      a.toInt - b.toInt - (bin.toNat : Int) < -128 ∨ 127 < a.toInt - b.toInt - (bin.toNat : Int) := by
  have := bin.toNat_le
  rw [bne, bne, and_0x80_eq_zero, and_0x80_eq_zero, BitVec.msb_xor, BitVec.msb_xor, Bool.not_not, Bool.not_not,
    BitVec.toInt_eq_msb_cond a, BitVec.toInt_eq_msb_cond b]
  simp only [BitVec.msb_eq_decide, BitVec.toNat_ofInt]
  -- Operands of two signs leave the range exactly where the sign is lost; operands of one sign never do.
  by_cases ha : 128 ≤ a.toNat <;> by_cases hb : 128 ≤ b.toNat <;> simp [ha, hb] <;> omega

/-- `sub8` gives the difference and its flags, whatever the flag rules (R80, R82). -/
theorem isDifference_sub8 (m : FlagRules) (f : Flags) (a b : Byte) (bin : Bool) :
    IsDifference m f a b bin (sub8 m f a b bin).1 (sub8 m f a b bin).2 := by
  have difference :
      ((sub8 m f a b bin).1.toNat : Int) = ((a.toNat : Int) - (b.toNat : Int) - (bin.toNat : Int)) % 256 := by
    rw [sub8_fst, BitVec.toNat_ofInt]
    omega
  cases m with
  | base =>
    exact ⟨difference, bitOf_seven_iff _, beq_zero_iff_toNat _, difference_neg_iff a b bin,
      not_subHb_hcIndex_iff a b bin, parity_iff _, rfl, rfl, rfl⟩
  | ext x =>
    refine ⟨difference, bitOf_seven_iff _, beq_zero_iff_toNat _, difference_neg_iff a b bin, ?_⟩
    rintro rfl
    exact ⟨subHb_hcIndex_iff a b bin, subOverflow_iff a b bin, rfl⟩

/-- Under the Z80 rules a subtraction copies bits 3 and 5 of its result (R82). -/
theorem copies35_sub8 (m : FlagRules) (f : Flags) (a b : Byte) (bin : Bool) :
    Copies35 m (sub8 m f a b bin).1 (sub8 m f a b bin).2 := by
  rintro rfl
  exact ⟨rfl, rfl⟩

/-- An instruction that writes the difference to A, writes its flags, and ends after its length, at its cell of the
decided tables. -/
theorem exec_sub {s : State} {i : Instr} {x : Byte} {bin : Bool} {len : Word} {cost : Nat}
    (h : exec i s = .next ((s.setAcc (sub8 s.cfg.flagRules s.flags s.a x bin)).advance i len))
    (hc : DecidedCells i.opcode (cost, cost) (cost, cost)) :
    ∃ t, exec i s = .next t ∧ IsDifference s.cfg.flagRules s.flags s.a x bin t.a t.flags
      ∧ Copies35 s.cfg.flagRules t.a t.flags ∧ EndsAt s t (s.pc + len) cost cost :=
  ⟨_, h, isDifference_sub8 _ _ _ _ _, copies35_sub8 _ _ _ _ _, endsAt_advance hc rfl rfl rfl len⟩

/-- Settles O26: each of the six is an `exec_sub`, with its operand, its borrow in and its cell. -/
theorem subtractInstructions : Obligations.SubtractInstructions := by
  intro s
  refine ⟨fun r => ?subR, ?subM, fun v => ?sui, fun r => ?sbbR, ?sbbM, fun v => ?sbi⟩
  case subR => exact exec_sub rfl (decidedCells_subR r)
  case subM => exact exec_sub rfl decidedCells_subM
  case sui => exact exec_sub rfl (decidedCells_sui v)
  case sbbR => exact exec_sub rfl (decidedCells_sbbR r)
  case sbbM => exact exec_sub rfl decidedCells_sbbM
  case sbi => exact exec_sub rfl (decidedCells_sbi v)

end Sys2Proof.Machine
end

section
/-! PROOFS. Increment and decrement in numbers (41_alu_flag_engine.md R84, R85): each flag `inc8` and `dec8` compute
from bits is a comparison of numbers, and INR and DCR write the byte to their register or offer it to the bus at HL
(43_arithmetic.md R125 to R128). -/

namespace Sys2Proof.Machine

/-! ## The low nibble and the ends of the signed range -/

theorem and_0x0F_toNat (x : Byte) : (x &&& 0x0F).toNat = x.toNat % 16 := Nat.and_two_pow_sub_one_eq_mod x.toNat 4

/-- The low nibble carries when one is added to it at 15 (R84). -/
theorem lowNibble_eq_15_iff (x : Byte) : ((x &&& 0x0F) == 0x0F) = true ↔ x.toNat % 16 = 15 := by
  rw [beq_iff_eq, ← BitVec.toNat_inj, and_0x0F_toNat]
  rfl

/-- The low nibble borrows when one is taken from it at 0 (R85). -/
theorem lowNibble_eq_zero_iff (x : Byte) : ((x &&& 0x0F) == 0) = true ↔ x.toNat % 16 < 1 := by
  rw [beq_zero_iff_toNat, and_0x0F_toNat, Nat.lt_one_iff]

/-- In BASE the half-carry of a decrement is that the low nibble does not borrow (R85). -/
theorem lowNibble_ne_zero_iff (x : Byte) : ((x &&& 0x0F) != 0) = true ↔ 1 ≤ x.toNat % 16 := by
  rw [bne, Bool.not_eq_true', ← Bool.not_eq_true, lowNibble_eq_zero_iff, Nat.not_lt]

/-- 127 is the one byte whose successor leaves the signed range (R84). -/
theorem inc_overflow_iff (x : Byte) : (x == 0x7F) = true ↔ 127 < x.toInt + 1 := by
  revert x
  decide

/-- -128 is the one byte whose predecessor leaves the signed range (R85). -/
theorem dec_overflow_iff (x : Byte) : (x == 0x80) = true ↔ x.toInt - 1 < -128 := by
  revert x
  decide

/-! ## The counting functions -/

/-- `inc8` gives the byte and its flags, whatever the flag rules (R84). -/
theorem isIncrement_inc8 (m : FlagRules) (f : Flags) (x : Byte) :
    IsIncrement m f x (inc8 m f x).1 (inc8 m f x).2 := by
  have byte : (inc8 m f x).1.toNat = (x.toNat + 1) % 256 := by
    rw [inc8_fst]
    exact BitVec.toNat_add x 1
  cases m with
  | base =>
    exact ⟨byte, bitOf_seven_iff _, beq_zero_iff_toNat _, lowNibble_eq_15_iff x, rfl, parity_iff _, rfl, rfl, rfl⟩
  | ext e =>
    refine ⟨byte, bitOf_seven_iff _, beq_zero_iff_toNat _, lowNibble_eq_15_iff x, rfl, ?_⟩
    rintro rfl
    exact ⟨inc_overflow_iff x, rfl, rfl, rfl⟩

/-- `dec8` gives the byte and its flags, whatever the flag rules (R85). -/
theorem isDecrement_dec8 (m : FlagRules) (f : Flags) (x : Byte) :
    IsDecrement m f x (dec8 m f x).1 (dec8 m f x).2 := by
  have byte : ((dec8 m f x).1.toNat : Int) = ((x.toNat : Int) - 1) % 256 := by
    rw [dec8_fst, byte_sub_one_toNat]
    omega
  cases m with
  | base =>
    exact ⟨byte, bitOf_seven_iff _, beq_zero_iff_toNat _, rfl, lowNibble_ne_zero_iff x, parity_iff _, rfl, rfl, rfl⟩
  | ext e =>
    refine ⟨byte, bitOf_seven_iff _, beq_zero_iff_toNat _, rfl, ?_⟩
    rintro rfl
    exact ⟨lowNibble_eq_zero_iff x, dec_overflow_iff x, rfl, rfl, rfl⟩

/-! ## The instructions -/

section Shapes

variable {s : State} {i : Instr} {len : Word} {base ext : Nat} {x : Byte × Flags}

/-- An instruction that writes an ALU function's byte to a register and its flags to the flags has both, as any relation
`P` states of that function. -/
theorem exec_setReg_flags (P : Byte → Flags → Prop) {r : Reg}
    (h : exec i s = .next ((State.setReg { s with flags := x.2 } r x.1).advance i len)) (hx : P x.1 x.2)
    (hc : DecidedCells i.opcode (base, base) (ext, ext)) :
    ∃ t, exec i s = .next t ∧ P (t.reg r) t.flags ∧ EndsAt s t (s.pc + len) base ext := by
  refine ⟨_, h, ?written, ?ends⟩
  case written =>
    rw [State.advance_reg, State.reg_setReg_same, State.advance_flags, State.setReg_flags]
    exact hx
  case ends => exact endsAt_advance hc (State.setReg_pc _ _ _) (State.setReg_ticks _ _ _) (State.setReg_cfg _ _ _) len

/-- The same of M: the byte is offered to the bus at HL (R35). -/
theorem exec_setMemHl_flags (P : Byte → Flags → Prop)
    (h : exec i s = .next ((State.setMemHl { s with flags := x.2 } x.1).advance i len)) (hx : P x.1 x.2)
    (hc : DecidedCells i.opcode (base, base) (ext, ext)) :
    ∃ t v, exec i s = .next t ∧ P v t.flags ∧ (∀ w, t.memRead w = (s.memWrite s.hl v).memRead w)
      ∧ EndsAt s t (s.pc + len) base ext :=
  ⟨_, x.1, h, hx, fun _ => rfl, endsAt_advance hc rfl rfl rfl len⟩

end Shapes

/-- Settles O28: each form writes what its counting function gives, to its register or through the bus, at its cell. -/
theorem incrementDecrementInstructions : Obligations.IncrementDecrementInstructions := by
  intro s
  refine ⟨fun r => ?inrR, ?inrM, fun r => ?dcrR, ?dcrM⟩
  case inrR => exact exec_setReg_flags (IsIncrement _ _ _) rfl (isIncrement_inc8 ..) (decidedCells_inrR r)
  case inrM => exact exec_setMemHl_flags (IsIncrement _ _ _) rfl (isIncrement_inc8 ..) decidedCells_inrM
  case dcrR => exact exec_setReg_flags (IsDecrement _ _ _) rfl (isDecrement_dec8 ..) (decidedCells_dcrR r)
  case dcrM => exact exec_setMemHl_flags (IsDecrement _ _ _) rfl (isDecrement_dec8 ..) decidedCells_dcrM

end Sys2Proof.Machine
end

section
/-! PROOFS. Pair arithmetic (41_alu_flag_engine.md R89): `add16` computes its carries from bits 15 and 11 of a sum of
words, and INX, DCX and DAD write a pair (43_arithmetic.md R129 to R131). -/

namespace Sys2Proof.Machine

/-! ## Words in numbers -/

theorem word_sub_one_toNat (w : Word) : (w - 1).toNat = (w.toNat + 65535) % 65536 := by
  rw [BitVec.toNat_sub]
  exact congrArg (· % 65536) (Nat.add_comm ..)

theorem and_0x0FFF_toNat (w : Word) : (w &&& 0x0FFF).toNat = w.toNat % 4096 :=
  Nat.and_two_pow_sub_one_eq_mod w.toNat 12

/-- Bits of the high byte are bits of the word (R10). -/
theorem hiByte_getLsbD (w : Word) (k : Nat) (hk : k < 8) : (hiByte w).getLsbD k = w.getLsbD (8 + k) := by
  rw [hiByte, BitVec.getLsbD_extractLsb', decide_eq_true hk, Bool.true_and]

/-! ## The sum of words (R89) -/

/-- Bit 16 of a sum of two words is the carry out of it. -/
theorem testBit_sixteen (v w : Word) : (v.toNat + w.toNat).testBit 16 = decide (65536 ≤ v.toNat + w.toNat) := by
  have := v.isLt
  have := w.isLt
  rw [Nat.testBit_eq_decide_div_mod_eq, decide_eq_decide]
  omega

/-- `add16` keeps fS, fZ and fP and writes the carries out of bits 15 and 11, bits 3 and 5 of the high byte being bits
11 and 13 of the sum. -/
theorem isCarryFlags_add16 (m : FlagRules) (f : Flags) (hl x : Word) :
    IsCarryFlags m f (add16 m f hl x).2 (decide (65536 ≤ hl.toNat + x.toNat))
      (decide (4096 ≤ hl.toNat % 4096 + x.toNat % 4096)) false (hiByte (add16 m f hl x).1) := by
  have carry := testBit_sixteen hl x
  cases m with
  | base => exact ⟨rfl, rfl, rfl, carry, rfl, rfl, rfl, rfl⟩
  | ext e =>
    refine ⟨rfl, rfl, rfl, carry, ?_⟩
    rintro rfl
    refine ⟨?halfCarry, rfl, (hiByte_getLsbD _ 3 (by decide)).symm, (hiByte_getLsbD _ 5 (by decide)).symm⟩
    case halfCarry =>
      show decide (0x0FFF < (hl &&& 0x0FFF).toNat + (x &&& 0x0FFF).toNat) = _
      rw [and_0x0FFF_toNat, and_0x0FFF_toNat]
      rfl

/-! ## The instructions -/

/-- An instruction that writes a pair and no flag, the pair in numbers. -/
theorem exec_setPair {s : State} {i : Instr} {p : RegPair} {w : Word} {len : Word} {n base ext : Nat}
    (h : exec i s = .next ((s.setPair p w).advance i len)) (hw : w.toNat = n)
    (hc : DecidedCells i.opcode (base, base) (ext, ext)) :
    ∃ t, exec i s = .next t ∧ (t.pair p).toNat = n ∧ t.flags = s.flags ∧ EndsAt s t (s.pc + len) base ext := by
  refine ⟨_, h, ?pair, State.setPair_flags _ _ _, ?ends⟩
  case pair => exact (congrArg BitVec.toNat (s.pair_setPair p w)).trans hw
  case ends =>
    exact endsAt_advance hc (State.setPair_pc _ _ _) (State.setPair_ticks _ _ _) (State.setPair_cfg _ _ _) len

/-- DAD: HL reads as the sum, with the flags of `add16` (R131). -/
theorem exec_dad (s : State) (p : RegPair) :
    ∃ t, exec (.dad p) s = .next t ∧ t.hl.toNat = (s.hl.toNat + (s.pair p).toNat) % 65536
      ∧ IsCarryFlags s.cfg.flagRules s.flags t.flags (decide (65536 ≤ s.hl.toNat + (s.pair p).toNat))
        (decide (4096 ≤ s.hl.toNat % 4096 + (s.pair p).toNat % 4096)) false t.h
      ∧ EndsAt s t (s.pc + 1) 10 11 := by
  refine ⟨_, rfl, ?sum, isCarryFlags_add16 .., endsAt_advance (decidedCells_dad p) rfl rfl rfl 1⟩
  case sum =>
    rw [State.advance_hl, State.hl, State.setHl_h, State.setHl_l, wordOf_halves, add16_fst, BitVec.toNat_ofNat]

/-- Settles O29: INX and DCX are an `exec_setPair` each, and DAD is `exec_dad`. -/
theorem pairArithmeticInstructions : Obligations.PairArithmeticInstructions := by
  refine fun s p => ⟨?inx, ?dcx, exec_dad s p⟩
  case inx => exact exec_setPair rfl (BitVec.toNat_add _ 1) (decidedCells_inx p)
  case dcx => exact exec_setPair rfl (word_sub_one_toNat _) (decidedCells_dcx p)

end Sys2Proof.Machine
end

section
/-! PROOFS. Decimal adjust in numbers (41_alu_flag_engine.md R90, R91): both algorithms correct A by one number, which
BASE adds by the ordinary add path and EXT adds or, after a subtraction, subtracts (43_arithmetic.md R132). -/

namespace Sys2Proof.Machine

/-! ## The correction -/

/-- The correction of the low digit: half-carry, or a digit above 9. -/
def daaLow (f : Flags) (a : Byte) : Nat := if f.fH = true ∨ 9 < a.toNat % 16 then 6 else 0

/-- The correction of the high digit: carry, or a byte above 0x99. -/
def daaHigh (f : Flags) (a : Byte) : Nat := if f.fC = true ∨ 0x99 < a.toNat then 0x60 else 0

/-- The byte both algorithms correct A by. -/
def daaCorr (f : Flags) (a : Byte) : Byte := BitVec.ofNat 8 (daaLow f a + daaHigh f a)

theorem daaLow_le (f : Flags) (a : Byte) : daaLow f a ≤ 6 := by
  unfold daaLow
  split <;> decide

theorem daaHigh_eq (f : Flags) (a : Byte) : daaHigh f a = 0x60 ∨ daaHigh f a = 0 := ite_eq_or_eq ..

theorem daaCorr_toNat (f : Flags) (a : Byte) : (daaCorr f a).toNat = daaLow f a + daaHigh f a := by
  have := daaLow_le f a
  have := daaHigh_eq f a
  rw [daaCorr, BitVec.toNat_ofNat]
  omega

/-- EXT builds the correction from its two digits (R91). -/
theorem daaCorr_of_digits (f : Flags) (a : Byte) :
    (let corr : Byte := if f.fH || decide (9 < a.toNat % 16) then 0x06 else 0
     if f.fC || decide (0x99 < a.toNat) then corr ||| 0x60 else corr) = daaCorr f a := by
  simp only [daaCorr, daaLow, daaHigh, Bool.or_eq_true, decide_eq_true_eq]
  split <;> split <;> rfl

/-- BASE asks for the high correction in other words: a byte above 0x99 is one above 0x9F, or one above 0x8F whose low
digit exceeds 9 (R90). -/
theorem daaBase_high_eq (f : Flags) (a : Byte) :
    (f.fC || decide (0x9F < a.toNat) || (decide (0x8F < a.toNat) && decide (9 < a.toNat % 16))) =
      (f.fC || decide (0x99 < a.toNat)) := by
  rw [Bool.or_assoc, ← Bool.decide_and, ← Bool.decide_or]
  congr 2
  rw [eq_iff_iff]
  omega

/-- The carry of both algorithms is that the high digit is corrected (R90, R91). -/
theorem daaCarry_iff (f : Flags) (a : Byte) :
    (f.fC || decide (0x99 < a.toNat)) = true ↔ f.fC = true ∨ 0x99 < a.toNat := by
  rw [Bool.or_eq_true, decide_eq_true_iff]

/-! ## The algorithm of BASE (R90) -/

/-- Where the high digit is left alone, A is at most 0x99, so that adding the correction does not carry. -/
theorem add8_daaCorr_carry {f : Flags} {a : Byte} (high : ¬ (f.fC = true ∨ 0x99 < a.toNat)) :
    (add8 .base f a (daaCorr f a) false).2.fC = false := by
  obtain ⟨-, -, -, -, carry, -⟩ := isSum_add8 .base f a (daaCorr f a) false
  have := daaLow_le f a
  rw [daaCorr_toNat, daaHigh, if_neg high, Bool.toNat_false] at carry
  rw [Bool.eq_false_iff, ne_eq, carry]
  omega

theorem Flags.with_fC_self {g : Flags} {c : Bool} (h : g.fC = c) : { g with fC := c } = g := by rw [← h]

/-- BASE adds the correction by the ordinary add path and sets fC by the high digit. -/
theorem daaBase_eq (f : Flags) (a : Byte) :
    daaBase f a = ((add8 .base f a (daaCorr f a) false).1,
      { (add8 .base f a (daaCorr f a) false).2 with fC := f.fC || decide (0x99 < a.toNat) }) := by
  have corr := daaCorr_of_digits f a
  simp only [daaBase, daaBase_high_eq] at corr ⊢
  rw [corr, Bool.or_comm (decide _)]
  split
  case isTrue forced => rw [forced]
  case isFalse unforced =>
    have kept := add8_daaCorr_carry ((daaCarry_iff f a).not.mp unforced)
    rw [Bool.eq_false_iff.mpr unforced, Flags.with_fC_self kept]

/-- In BASE the correction is added, and fH is the carry out of the low digit. -/
theorem daa8_base {m : FlagRules} (hm : m = .base) (f : Flags) (a : Byte) :
    (daa8 m f a).1.toNat = (a.toNat + (daaLow f a + daaHigh f a)) % 256
      ∧ ((daa8 m f a).2.fH = true ↔ 16 ≤ a.toNat % 16 + daaLow f a)
      ∧ ((daa8 m f a).2.fP = true ↔ popcount (daa8 m f a).1 % 2 = 0) ∧ KeepsExtFlags f (daa8 m f a).2 := by
  subst hm
  obtain ⟨sum, -, -, halfCarry, -, parity, f3, f5, fN⟩ := isSum_add8 .base f a (daaCorr f a) false
  have := daaLow_le f a
  have := daaHigh_eq f a
  rw [daaCorr_toNat, Bool.toNat_false] at sum halfCarry
  rw [daa8, daaBase_eq]
  refine ⟨sum, halfCarry.trans ?digit, parity, f3, f5, fN⟩
  case digit => omega

/-! ## The algorithm of EXT (R91) -/

/-- EXT adds the correction, or takes it away as the flag rules say after a subtraction. -/
theorem daaExt_fst (x : ExtFlagRules) (f : Flags) (a : Byte) :
    (daaExt x f a).1 = if f.fN then daaAfterSub x f a (daaCorr f a) else a + daaCorr f a := by
  rw [← daaCorr_of_digits]
  rfl

/-- After an addition EXT adds the correction, and fH is that the low digit exceeds 9. -/
theorem daa8_ext_add {m : FlagRules} {x : ExtFlagRules} (hm : m = .ext x) {f : Flags} (hN : f.fN = false) (a : Byte) :
    (daa8 m f a).1.toNat = (a.toNat + (daaLow f a + daaHigh f a)) % 256
      ∧ ((daa8 m f a).2.fH = true ↔ 9 < a.toNat % 16) := by
  subst hm
  refine ⟨?sum, ?halfCarry⟩
  case sum => rw [daa8, daaExt_fst, hN, if_neg Bool.false_ne_true, BitVec.toNat_add, daaCorr_toNat]
  case halfCarry =>
    show (if f.fN = true then (_ : Bool) else decide (9 < a.toNat % 16)) = true ↔ _
    rw [hN, if_neg Bool.false_ne_true, decide_eq_true_iff]

/-- Under the Z80 rules fP is the parity and f3 and f5 copy the result; after a subtraction the correction is taken
away, and fH stays set where the low digit borrows again. -/
theorem daa8_z80 {m : FlagRules} (hm : m = .ext .z80) (f : Flags) (a : Byte) :
    ((daa8 m f a).2.fP = true ↔ popcount (daa8 m f a).1 % 2 = 0)
      ∧ (daa8 m f a).2.f3 = (daa8 m f a).1.getLsbD 3 ∧ (daa8 m f a).2.f5 = (daa8 m f a).1.getLsbD 5
      ∧ (f.fN = true → (daa8 m f a).1.toNat = (a.toNat + 256 - (daaLow f a + daaHigh f a)) % 256
        ∧ ((daa8 m f a).2.fH = true ↔ f.fH = true ∧ a.toNat % 16 < 6)) := by
  subst hm
  refine ⟨parity_iff _, rfl, rfl, fun hN => ⟨?difference, ?halfBorrow⟩⟩
  case difference =>
    have := daaLow_le f a
    have := daaHigh_eq f a
    rw [daa8, daaExt_fst, if_pos hN, daaAfterSub_z80, BitVec.toNat_sub, daaCorr_toNat]
    omega
  case halfBorrow =>
    show (if f.fN = true then f.fH && decide (a.toNat % 16 < 6) else _) = true ↔ _
    rw [if_pos hN, Bool.and_eq_true, decide_eq_true_iff]

/-! ## Both modes -/

/-- Both modes set fC by the high digit, take fS and fZ from the result and keep fN. -/
theorem daa8_shared (m : FlagRules) (f : Flags) (a : Byte) :
    ((daa8 m f a).2.fC = true ↔ f.fC = true ∨ 0x99 < a.toNat)
      ∧ ((daa8 m f a).2.fS = true ↔ 128 ≤ (daa8 m f a).1.toNat)
      ∧ ((daa8 m f a).2.fZ = true ↔ (daa8 m f a).1.toNat = 0) ∧ (daa8 m f a).2.fN = f.fN := by
  cases m with
  | base =>
    rw [daa8, daaBase_eq]
    exact ⟨daaCarry_iff f a, bitOf_seven_iff _, beq_zero_iff_toNat _, rfl⟩
  | ext x => exact ⟨daaCarry_iff f a, bitOf_seven_iff _, beq_zero_iff_toNat _, rfl⟩

/-- Settles O30: what both modes share, then BASE, EXT after an addition, and EXT under the Z80 rules. -/
theorem decimalAdjustInstruction : Obligations.DecimalAdjustInstruction := by
  intro s
  obtain ⟨carry, sign, zero, fN⟩ := daa8_shared s.cfg.flagRules s.flags s.a
  refine ⟨_, rfl, ⟨carry, sign, zero, fN, fun hm => ?base, fun hm hN => ?extAdd, fun hm hx => ?z80⟩,
    endsAt_advance decidedCells_daa rfl rfl rfl 1⟩
  case base => exact daa8_base (flagRules_base hm) s.flags s.a
  case extAdd => exact daa8_ext_add (flagRules_ext hm) hN s.a
  case z80 => exact daa8_z80 ((flagRules_ext hm).trans (congrArg _ hx)) s.flags s.a

end Sys2Proof.Machine
end

section
/-! PROOFS. Logic, compare and rotates (41_alu_flag_engine.md R83, R86 to R88): a comparison is `sub8` with its result
discarded, a logic operation combines A with its operand bit by bit, and a rotate is a shift with one bit put in the
place it frees (44_logical_rotate.md R133 to R148). -/

namespace Sys2Proof.Machine

/-! ## Comparison (R83) -/

/-- With no borrow in, `sub8` subtracts modulo 256 (R80). -/
theorem sub8_false_fst (m : FlagRules) (f : Flags) (a b : Byte) : (sub8 m f a b false).1 = a - b := by
  apply BitVec.eq_of_toNat_eq
  rw [sub8_fst, Bool.toNat_false, BitVec.toNat_ofInt, BitVec.toNat_sub]
  omega

/-- `cmp8` gives the flags of the difference, f3 and f5 apart: those `sub8` gives, or in EXT copies of them. -/
theorem isDifference_cmp8 (m : FlagRules) (f : Flags) (a b : Byte) :
    IsDifference m f a b false (a - b) (cmp8 m f a b) := by
  have sub := isDifference_sub8 m f a b false
  rw [sub8_false_fst] at sub
  cases m with
  | base => exact sub
  | ext x =>
    obtain ⟨difference, sign, zero, borrow, details⟩ := sub
    refine ⟨difference, sign, zero, borrow, ?_⟩
    rintro rfl
    exact details rfl

/-- Under the Z80 rules a comparison copies bits 3 and 5 of its operand (R83). -/
theorem copies35_cmp8 (m : FlagRules) (f : Flags) (a b : Byte) : Copies35 m b (cmp8 m f a b) := by
  rintro rfl
  exact ⟨rfl, rfl⟩

/-- An instruction that writes the flags of a comparison, and nothing else, keeps A and ends after its length, at its
cell of the decided tables. -/
theorem exec_cmp {s : State} {i : Instr} {x : Byte} {len : Word} {cost : Nat}
    (h : exec i s = .next (State.advance { s with flags := cmp8 s.cfg.flagRules s.flags s.a x } i len))
    (hc : DecidedCells i.opcode (cost, cost) (cost, cost)) :
    ∃ t, exec i s = .next t ∧ t.a = s.a ∧ IsDifference s.cfg.flagRules s.flags s.a x false (s.a - x) t.flags
      ∧ Copies35 s.cfg.flagRules x t.flags ∧ EndsAt s t (s.pc + len) cost cost :=
  ⟨_, h, rfl, isDifference_cmp8 .., copies35_cmp8 _ _ _ _, endsAt_advance hc rfl rfl rfl len⟩

/-- Settles O27: each of the three is an `exec_cmp`, with its operand and its cell. -/
theorem compareInstructions : Obligations.CompareInstructions := by
  intro s
  refine ⟨fun r => ?cmpR, ?cmpM, fun v => ?cpi⟩
  case cmpR => exact exec_cmp rfl (decidedCells_cmpR r)
  case cmpM => exact exec_cmp rfl decidedCells_cmpM
  case cpi => exact exec_cmp rfl (decidedCells_cpi v)

/-! ## Logic (R86, R87) -/

/-- `logicFlags` gives the flags of its result, whatever the operation and the flag rules. -/
theorem isLogicFlags_logicFlags (m : FlagRules) (f : Flags) (op : AluOp) (r : Byte) (hBase hExt : Bool) :
    IsLogicFlags m f r (logicFlags m f op r hBase hExt) hBase hExt := by
  cases m with
  | base => exact ⟨bitOf_seven_iff r, beq_zero_iff_toNat r, parity_iff r, rfl, rfl, rfl, rfl, rfl⟩
  | ext x =>
    refine ⟨bitOf_seven_iff r, beq_zero_iff_toNat r, parity_iff r, rfl, ?_⟩
    rintro rfl
    exact ⟨rfl, rfl, rfl, rfl⟩

/-- Masking with 0x08 leaves bit 3. -/
theorem and_0x08_ne_zero (v : Byte) : ((v &&& 0x08) != 0) = v.getLsbD 3 := by
  revert v
  decide

/-- In BASE the half-carry of `and8` is that bit 3 of either operand is set (R86). -/
theorem isLogicFlags_and8 (m : FlagRules) (f : Flags) (a b : Byte) :
    IsLogicFlags m f (and8 m f a b).1 (and8 m f a b).2 (a.getLsbD 3 || b.getLsbD 3) true := by
  rw [← BitVec.getLsbD_or, ← and_0x08_ne_zero]
  exact isLogicFlags_logicFlags ..

/-- An instruction that writes a logic operation's result to A, its bits those of `op`, writes its flags, and ends after
its length, at its cell of the decided tables. -/
theorem exec_logic {s : State} {i : Instr} {x : Byte} {len : Word} {cost : Nat} {op : Bool → Bool → Bool}
    {y : Byte × Flags} {hBase hExt : Bool}
    (h : exec i s = .next ((s.setAcc y).advance i len))
    (bits : ∀ k, y.1.getLsbD k = op (s.a.getLsbD k) (x.getLsbD k))
    (flags : IsLogicFlags s.cfg.flagRules s.flags y.1 y.2 hBase hExt)
    (hc : DecidedCells i.opcode (cost, cost) (cost, cost)) :
    ∃ t, exec i s = .next t ∧ (∀ k, k < 8 → t.a.getLsbD k = op (s.a.getLsbD k) (x.getLsbD k))
      ∧ IsLogicFlags s.cfg.flagRules s.flags t.a t.flags hBase hExt ∧ EndsAt s t (s.pc + len) cost cost :=
  ⟨_, h, fun k _ => bits k, flags, endsAt_advance hc rfl rfl rfl len⟩

/-- Settles O32: each of the nine is an `exec_logic`, with its operation's bits and flags and its cell. -/
theorem logicInstructions : Obligations.LogicInstructions := by
  intro s
  refine ⟨fun r => ?anaR, ?anaM, fun v => ?ani, fun r => ?xraR, ?xraM, fun v => ?xri, fun r => ?oraR, ?oraM,
    fun v => ?ori⟩
  case anaR => exact exec_logic rfl (fun _ => BitVec.getLsbD_and) (isLogicFlags_and8 ..) (decidedCells_anaR r)
  case anaM => exact exec_logic rfl (fun _ => BitVec.getLsbD_and) (isLogicFlags_and8 ..) decidedCells_anaM
  case ani => exact exec_logic rfl (fun _ => BitVec.getLsbD_and) (isLogicFlags_and8 ..) (decidedCells_ani v)
  case xraR => exact exec_logic rfl (fun _ => BitVec.getLsbD_xor) (isLogicFlags_logicFlags ..) (decidedCells_xraR r)
  case xraM => exact exec_logic rfl (fun _ => BitVec.getLsbD_xor) (isLogicFlags_logicFlags ..) decidedCells_xraM
  case xri => exact exec_logic rfl (fun _ => BitVec.getLsbD_xor) (isLogicFlags_logicFlags ..) (decidedCells_xri v)
  case oraR => exact exec_logic rfl (fun _ => BitVec.getLsbD_or) (isLogicFlags_logicFlags ..) (decidedCells_oraR r)
  case oraM => exact exec_logic rfl (fun _ => BitVec.getLsbD_or) (isLogicFlags_logicFlags ..) decidedCells_oraM
  case ori => exact exec_logic rfl (fun _ => BitVec.getLsbD_or) (isLogicFlags_logicFlags ..) (decidedCells_ori v)

/-! ## Rotates (R88) -/

/-- `rotateFlags` keeps fS, fZ and fP and writes the carry, whatever the flag rules. -/
theorem isCarryFlags_rotateFlags (m : FlagRules) (f : Flags) (op : AluOp) (r : Byte) (c : Bool) :
    IsCarryFlags m f (rotateFlags m f op r c) c false false r := by
  cases m with
  | base => exact ⟨rfl, rfl, rfl, rfl, rfl, rfl, rfl, rfl⟩
  | ext x =>
    refine ⟨rfl, rfl, rfl, rfl, ?_⟩
    rintro rfl
    exact ⟨rfl, rfl, rfl, rfl⟩

/-- A shift to the left frees bit 0. -/
theorem shiftLeft_or_bitByte_toNat (a : Byte) (c : Bool) :
    ((a <<< 1) ||| bitByte c).toNat = 2 * a.toNat % 256 + c.toNat := by
  revert a c
  decide

/-- A shift to the right frees bit 7. -/
theorem shiftRight_or_bitByte_toNat (a : Byte) (c : Bool) :
    ((a >>> 1) ||| (bitByte c <<< 7)).toNat = a.toNat / 2 + 128 * c.toNat := by
  revert a c
  decide

theorem bitOf_seven (a : Byte) : bitOf a 7 = decide (128 ≤ a.toNat) :=
  Bool.eq_iff_iff.mpr ((bitOf_seven_iff a).trans decide_eq_true_iff.symm)

theorem bitOf_zero (a : Byte) : bitOf a 0 = decide (a.toNat % 2 = 1) := by
  rw [bitOf_eq, pow_zero, Nat.div_one]

theorem bitOf_seven_toNat (a : Byte) : (bitOf a 7).toNat = a.toNat / 128 := by
  have := a.isLt
  rw [bitOf_toNat]
  omega

theorem bitOf_zero_toNat (a : Byte) : (bitOf a 0).toNat = a.toNat % 2 := by
  rw [bitOf_toNat, pow_zero, Nat.div_one]

/-- An instruction that writes a rotated byte to A, the byte and its carry in numbers, and the flags of a rotate, ends
after one byte, at 4 ticks of the decided tables. -/
theorem exec_rotate {s : State} {i : Instr} {op : AluOp} {r : Byte} {c carry : Bool} {n : Nat}
    (h : exec i s = .next ((s.setAcc (r, rotateFlags s.cfg.flagRules s.flags op r c)).advance i 1)) (hr : r.toNat = n)
    (hcarry : c = carry) (hc : DecidedCells i.opcode (4, 4) (4, 4)) :
    ∃ t, exec i s = .next t ∧ t.a.toNat = n
      ∧ IsCarryFlags s.cfg.flagRules s.flags t.flags carry false false t.a ∧ EndsAt s t (s.pc + 1) 4 4 := by
  subst hcarry
  exact ⟨_, h, hr, isCarryFlags_rotateFlags .., endsAt_advance hc rfl rfl rfl 1⟩

/-- Settles O33: each of the four is an `exec_rotate`. RLC and RRC put in the bit that leaves A, RAL and RAR fC. -/
theorem rotateInstructions : Obligations.RotateInstructions := by
  intro s
  have left := shiftLeft_or_bitByte_toNat s.a
  have right := shiftRight_or_bitByte_toNat s.a
  refine ⟨?rlc, ?rrc, ?ral, ?rar⟩
  case rlc => exact exec_rotate rfl (bitOf_seven_toNat s.a ▸ left (bitOf s.a 7)) (bitOf_seven s.a) decidedCells_rlc
  case rrc => exact exec_rotate rfl (bitOf_zero_toNat s.a ▸ right (bitOf s.a 0)) (bitOf_zero s.a) decidedCells_rrc
  case ral => exact exec_rotate rfl (left s.flags.fC) (bitOf_seven s.a) decidedCells_ral
  case rar => exact exec_rotate rfl (right s.flags.fC) (bitOf_zero s.a) decidedCells_rar

end Sys2Proof.Machine
end

section
/-! PROOFS. The branches (45_branch.md): a jump writes PC alone, a call jumps from the state after a push, a return from
the state after a pop; each ends at its cell of the decided tables, a conditional one not taken at the second number. -/

namespace Sys2Proof.Machine

/-! ## The stack of a transfer (R154 to R158, R160) -/

/-- A jump after a push leaves SP and memory as the push did (R154). -/
theorem pushes_jumpTo (s : State) (v : Word) (i : Instr) (target : Word) :
    Pushes s ((s.push16 v).jumpTo i target) v :=
  ⟨s.push16_sp_eq v, s.memRead_push16 v⟩

/-- `Pop16()` returns the word on top of the stack. -/
theorem topOfStack_popValue (s : State) : TopOfStack s s.popValue := by
  rw [TopOfStack, State.popValue, wordOf_toNat, Nat.mul_comm, Nat.add_comm]

/-- RST goes to eight times its number, below 64, so nothing wraps (R158). -/
theorem rstTarget_toNat (n : BitVec 3) : (rstTarget n).toNat = 8 * n.toNat := by
  have := n.isLt
  rw [rstTarget, BitVec.toNat_ofNat]
  omega

/-! ## Conditional transfers (R153, R155, R157) -/

/-- A conditional instruction completes in the state of its outcome, with what holds of that state. -/
theorem exec_conditional {s taken fallen : State} {i : Instr} {c : Bool} {P Q : State → Prop}
    (h : exec i s = if c then .next taken else .next fallen) (hP : P taken) (hQ : Q fallen) :
    ∃ t, exec i s = .next t ∧ (c = true → P t) ∧ (c = false → Q t) := by
  cases c with
  | true => exact ⟨taken, h, fun _ => hP, nofun⟩
  | false => exact ⟨fallen, h, nofun, fun _ => hQ⟩

/-- A conditional transfer not taken changes PC and ticks alone and pays the second number of its cell. -/
theorem fallThrough_spec {s : State} {i : Instr} {base ext : Nat × Nat} (hc : DecidedCells i.opcode base ext)
    (len : Word) :
    ChangesOnly [] s (s.fallThrough i len) ∧ EndsAt s (s.fallThrough i len) (s.pc + len) base.2 ext.2 :=
  ⟨changesOnly_fallThrough s i len, endsAt_fallThrough hc rfl rfl rfl len⟩

/-! ## The obligations -/

/-- Settles O36: each form is the jump after its push; Ccc is that by its condition, else a fall-through. -/
theorem callInstructions : Obligations.CallInstructions := by
  intro s w
  refine ⟨?call, fun k => ?callAlias, fun cc => ?ccc, fun n => ?rst⟩
  case call => exact ⟨_, rfl, pushes_jumpTo .., endsAt_jumpTo (decidedCells_call w) rfl rfl w⟩
  case callAlias =>
    exact ⟨_, rfl, pushes_jumpTo .., rfl,
      fun hm => endsAt_jumpTo_base (decidedBaseCell_callAlias k w) hm rfl rfl w 17⟩
  case ccc =>
    have cells := decidedCells_ccc cc w
    exact exec_conditional rfl ⟨pushes_jumpTo .., endsAt_jumpTo cells rfl rfl w⟩ (fallThrough_spec cells 3)
  case rst =>
    exact ⟨_, rfl, pushes_jumpTo .., rstTarget_toNat n, endsAt_jumpTo (decidedCells_rst n) rfl rfl (rstTarget n)⟩

/-- Settles O37: each form is the jump to the popped word; Rcc is that by its condition, else a fall-through. -/
theorem returnInstructions : Obligations.ReturnInstructions := by
  intro s
  have top := topOfStack_popValue s
  have sp := s.popped_sp_eq
  refine ⟨?ret, ?retAlias, fun cc => ?rcc⟩
  case ret => exact ⟨_, rfl, top, sp, endsAt_jumpTo decidedCells_ret rfl rfl s.popValue⟩
  case retAlias =>
    exact ⟨_, rfl, top, sp, fun hm => endsAt_jumpTo_base decidedBaseCell_retAlias hm rfl rfl s.popValue 10⟩
  case rcc =>
    have cells := decidedCells_rcc cc
    exact exec_conditional rfl ⟨top, sp, endsAt_jumpTo cells rfl rfl s.popValue⟩ (fallThrough_spec cells 1)

/-- Settles O35: each form is one jump; Jcc is that by its condition, else a fall-through at the same cost. -/
theorem jumpInstructions : Obligations.JumpInstructions := by
  intro s w
  refine ⟨?jmp, ?jmpAlias, fun c => ?jcc, ?pchl⟩
  case jmp => exact ⟨_, rfl, changesOnly_jumpTo _ _ _, endsAt_jumpTo (decidedCells_jmp w) rfl rfl w⟩
  case jmpAlias =>
    exact ⟨_, rfl, changesOnly_jumpTo _ _ _, rfl,
      fun hm => endsAt_jumpTo_base (decidedBaseCell_jmpAlias w) hm rfl rfl w 10⟩
  case jcc =>
    have cells := decidedCells_jcc (condOf c) w
    by_cases hc : condHolds s.flags (condOf c) = true
    · rw [if_pos hc]
      exact ⟨_, if_pos hc, changesOnly_jumpTo _ _ _, endsAt_jumpTo cells rfl rfl w⟩
    · rw [if_neg hc]
      exact ⟨_, if_neg hc, fallThrough_spec cells 3⟩
  case pchl => exact ⟨_, rfl, changesOnly_jumpTo _ _ _, s.hl_toNat, endsAt_jumpTo decidedCells_pchl rfl rfl s.hl⟩

end Sys2Proof.Machine
end

section
/-! PROOFS. The stack and port instructions (46_stack_io_control.md R161 to R164, R167, R168): a PUSH ends after its
push, a POP after both bytes went to their registers, IN after A took the answer, OUT after its event is recorded. -/

namespace Sys2Proof.Machine

/-! ## PUSH (R160 to R162) -/

/-- An instruction that pushes a word leaves SP and memory as the push did, and ends after its length. -/
theorem exec_push16 {s : State} {i : Instr} {v len : Word} {base ext : Nat}
    (h : exec i s = .next ((s.push16 v).advance i len)) (hc : DecidedCells i.opcode (base, base) (ext, ext)) :
    ∃ t, exec i s = .next t ∧ Pushes s t v ∧ EndsAt s t (s.pc + len) base ext :=
  ⟨_, h, ⟨s.push16_sp_eq v, s.memRead_push16 v⟩, endsAt_advance hc rfl rfl rfl len⟩

/-- Settles O38: each form is an `exec_push16`, with its pair and its cell; the word of PUSH PSW has A above the packed
flags. -/
theorem pushInstructions : Obligations.PushInstructions := by
  refine fun s => ⟨?bc, ?de, ?hl, ?psw⟩
  case bc => exact exec_push16 rfl (decidedCells_push .bc)
  case de => exact exec_push16 rfl (decidedCells_push .de)
  case hl => exact exec_push16 rfl (decidedCells_push .hl)
  case psw =>
    obtain ⟨t, completes, pushes, ends⟩ := exec_push16 (s := s) rfl decidedCells_pushPsw
    exact ⟨t, _, completes, wordOf_toNat s.a _, pushes, ends⟩

/-! ## POP (R163, R164) -/

/-- Settles O39: the registers take the halves of the popped word, which are the bytes at SP and at SP+1; POP PSW
unpacks the flags from the low one. -/
theorem popInstructions : Obligations.PopInstructions := by
  intro s
  have low := s.loByte_popValue
  have high := s.hiByte_popValue
  have sp := s.popped_sp_eq
  refine ⟨?bc, ?de, ?hl, ?psw⟩
  case bc => exact ⟨_, rfl, low, high, sp, endsAt_advance (decidedCells_pop .bc) rfl rfl rfl 1⟩
  case de => exact ⟨_, rfl, low, high, sp, endsAt_advance (decidedCells_pop .de) rfl rfl rfl 1⟩
  case hl => exact ⟨_, rfl, low, high, sp, endsAt_advance (decidedCells_pop .hl) rfl rfl rfl 1⟩
  case psw =>
    exact ⟨_, rfl, high, congrArg (unpackFlags s.cfg.mode s.flags) low, sp,
      endsAt_advance decidedCells_popPsw rfl rfl rfl 1⟩

/-! ## The host's answers (R36; log entry 5) -/

section Answers

variable {s : State}

/-- A listed answer is the byte a port read gives, whatever the port. -/
theorem State.portAnswer_of_listed {v : Byte} {rest : List Byte} (h : s.portAnswers = v :: rest) (p : Word) :
    s.portAnswer p = v := by
  rw [State.portAnswer, h]

/-- A listed answer is used up, and the counter of unlisted answers stays. -/
theorem State.portReadDone_of_listed {v : Byte} {rest : List Byte} (h : s.portAnswers = v :: rest) :
    s.portReadDone = { s with portAnswers := rest } := by
  rw [State.portReadDone, h]

/-- Where none is listed, the byte is the free value of the counter and the port. -/
theorem State.portAnswer_of_unlisted (h : s.portAnswers = []) (p : Word) :
    s.portAnswer p = Config.portAnswer s.portReads p := by
  rw [State.portAnswer, h]

/-- Where none is listed, the read is counted. -/
theorem State.portReadDone_of_unlisted (h : s.portAnswers = []) :
    s.portReadDone = { s with portReads := s.portReads + 1 } := by
  rw [State.portReadDone, h]

end Answers

/-! ## The port number (R37) -/

/-- The decided port number is the operand. -/
theorem portAddress_zeroExtended {p : Params} (h : p.portAddressing = .zeroExtended) (n a : Byte) :
    (portAddress p n a).toNat = n.toNat := by
  rw [portAddress, h]
  exact BitVec.toNat_setWidth_of_le (by decide)

/-- The other named form has A above the operand. -/
theorem portAddress_accumulatorHigh {p : Params} (h : p.portAddressing = .accumulatorHigh) (n a : Byte) :
    (portAddress p n a).toNat = a.toNat * 256 + n.toNat := by
  rw [portAddress, h]
  exact wordOf_toNat a n

/-! ## IN and OUT (R167, R168) -/

/-- IN: A takes the answer and the port input is as after the read. -/
theorem exec_inPort (s : State) (n : Byte) :
    ∃ t, exec (.inPort n) s = .next t ∧ t.a = s.portAnswer (portAddress s.cfg n s.a)
      ∧ t.portAnswers = s.portReadDone.portAnswers ∧ t.portReads = s.portReadDone.portReads ∧ t.flags = s.flags
      ∧ EndsAt s t (s.pc + 2) 10 11 :=
  ⟨_, rfl, rfl, rfl, rfl, s.portReadDone_flags,
    endsAt_advance (decidedCells_inPort n) s.portReadDone_pc s.portReadDone_ticks s.portReadDone_cfg 2⟩

/-- OUT: the event is last in the record, and nothing else but PC and ticks changes. -/
theorem exec_outPort (s : State) (n : Byte) :
    ∃ t, exec (.outPort n) s = .next t ∧ t.portLog = s.portLog ++ [(portAddress s.cfg n s.a, s.a)]
      ∧ ChangesOnly [.portLog] s t ∧ EndsAt s t (s.pc + 2) 10 11 :=
  ⟨_, rfl, rfl, (changesOnly_portWrite s _ _).trans (changesOnly_advance _ _ _),
    endsAt_advance (decidedCells_outPort n) rfl rfl rfl 2⟩

/-- Settles O42: IN by whether the host has listed an answer, OUT by `exec_outPort`, and the two forms of the port
number. -/
theorem portInstructions : Obligations.PortInstructions := by
  refine fun s n => ⟨?inPort, exec_outPort s n, fun h => portAddress_zeroExtended h n s.a,
    fun h => portAddress_accumulatorHigh h n s.a, rfl⟩
  case inPort =>
    obtain ⟨t, completes, answer, answers, reads, flags, ends⟩ := exec_inPort s n
    refine ⟨t, completes, fun v rest h => ?listed, fun h => ?unlisted, flags, ends⟩
    case listed =>
      rw [State.portReadDone_of_listed h] at answers reads
      exact ⟨answer.trans (State.portAnswer_of_listed h _), answers, reads⟩
    case unlisted =>
      rw [State.portReadDone_of_unlisted h] at answers reads
      exact ⟨answer.trans (State.portAnswer_of_unlisted h _), answers.trans h, reads⟩

end Sys2Proof.Machine
end

section
/-! PROOFS. The exchanges of EXT (47_extended_mode.md R173, R174): each meaning is an exchange of two banks, which is
its own inverse, and the end of a one-byte instruction, which no exchange sees. -/

namespace Sys2Proof.Machine

/-! ## F in EXT is the flags bit by bit (R92, R93) -/

theorem getElem_bitByte (b : Bool) {k : Nat} (hk : k < 8) : (bitByte b)[k] = (decide (k = 0) && b) := by
  cases b <;> simp [bitByte]

/-- The bits of the packed byte, from bit 0 up (R92). -/
theorem bitOf_packFlags_ext (f : Flags) {k : Nat} (hk : k < 8) :
    bitOf (packFlags .ext f) k = [f.fC, f.fN, f.fP, f.f3, f.fH, f.f5, f.fZ, f.fS].getD k false := by
  rw [bitOf]
  interval_cases k <;> simp [packFlags, getElem_bitByte]

/-- In EXT every flag has a bit, so packed flags unpack to themselves, whatever the flags were before. -/
theorem unpackFlags_packFlags_ext (f g : Flags) : unpackFlags .ext f (packFlags .ext g) = g := by
  have bit {k : Nat} (hk : k < 8) := bitOf_packFlags_ext g hk
  rw [unpackFlags, bit (by decide : 0 < 8), bit (by decide : 1 < 8), bit (by decide : 2 < 8), bit (by decide : 3 < 8),
    bit (by decide : 4 < 8), bit (by decide : 5 < 8), bit (by decide : 6 < 8), bit (by decide : 7 < 8)]
  rfl

/-- In EXT every bit is a flag's, so an unpacked byte packs to itself. -/
theorem packFlags_unpackFlags_ext (f : Flags) (v : Byte) : packFlags .ext (unpackFlags .ext f v) = v := by
  refine BitVec.eq_of_getLsbD_eq fun k hk => (bitOf_packFlags_ext _ hk).trans ?_
  interval_cases k <;> rfl

/-! ## The two exchanges -/

/-- `swapAF()`: A and the packed flags for A' and F' (R173). -/
def State.swapAf (s : State) : State :=
  { s with
    a := s.alt.a
    flags := unpackFlags s.cfg.mode s.flags s.alt.f
    alt := { s.alt with a := s.a, f := packFlags s.cfg.mode s.flags } }

/-- `swapBank()`: B to L for B' to L' (R174). -/
def State.swapBank (s : State) : State :=
  { s with
    b := s.alt.b
    c := s.alt.c
    d := s.alt.d
    e := s.alt.e
    h := s.alt.h
    l := s.alt.l
    alt := { s.alt with b := s.b, c := s.c, d := s.d, e := s.e, h := s.h, l := s.l } }

theorem exec_exAfAf (s : State) : exec .exAfAf s = .next (s.swapAf.advance .exAfAf 1) := rfl

theorem exec_exx (s : State) : exec .exx s = .next (s.swapBank.advance .exx 1) := rfl

/-- In EXT no flag is lost on the way through F' and back. -/
theorem State.swapAf_swapAf {s : State} (hm : s.cfg.mode = .ext) : s.swapAf.swapAf = s := by
  have flags : s.swapAf.swapAf.flags = s.flags := by
    simp only [State.swapAf, hm, unpackFlags_packFlags_ext]
  have altF : s.swapAf.swapAf.alt.f = s.alt.f := by
    simp only [State.swapAf, hm, packFlags_unpackFlags_ext]
  calc s.swapAf.swapAf
      = { s with flags := s.swapAf.swapAf.flags, alt := { s.alt with f := s.swapAf.swapAf.alt.f } } := rfl
    _ = s := by rw [flags, altF]

theorem State.swapBank_swapBank (s : State) : s.swapBank.swapBank = s := rfl

/-- EX AF,AF' leaves every register other than A and its alternate (R173). -/
theorem State.swapAf_reg (s : State) {r : Reg} (hr : r ≠ .a) :
    s.swapAf.reg r = s.reg r ∧ s.swapAf.alt.reg r = s.alt.reg r := by
  cases r with
  | a => exact absurd rfl hr
  | _ => exact ⟨rfl, rfl⟩

/-- What EXX does to a register other than A: its value and its alternate's change places (R174). -/
theorem State.swapBank_reg (s : State) {r : Reg} (hr : r ≠ .a) :
    s.swapBank.reg r = s.alt.reg r ∧ s.swapBank.alt.reg r = s.reg r := by
  cases r with
  | a => exact absurd rfl hr
  | _ => exact ⟨rfl, rfl⟩

/-- An instruction that exchanges, run on the state it left, undoes the exchange where that is its own inverse and
neither reads nor writes PC and ticks. -/
theorem exec_exchange_twice {i : Instr} {exchange : State → State} {s : State}
    (run : ∀ s, exec i s = .next ((exchange s).advance i 1))
    (commutes : ∀ (t : State) (pc : Word) (ticks : Nat),
      exchange { t with pc := pc, ticks := ticks } = { exchange t with pc := pc, ticks := ticks })
    (involutive : exchange (exchange s) = s) :
    ∃ u, exec i ((exchange s).advance i 1) = .next u ∧ u = { s with pc := u.pc, ticks := u.ticks } := by
  refine ⟨_, run _, ?_⟩
  rw [State.advance.eq_def (exchange s), commutes, involutive]
  rfl

/-! ## The obligation -/

/-- Settles O44: each meaning is its exchange and the end of a one-byte instruction; the exchanges are their own
inverses, EX AF,AF' because F' holds every flag of EXT. -/
theorem exchangeInstructions : Obligations.ExchangeInstructions := by
  intro s hm
  refine ⟨⟨_, exec_exAfAf s, rfl, ?storedFlags, rfl, ?altF, fun r hr => ?afOthers, ?afEnds, ?afTwice⟩,
    ⟨_, exec_exx s, fun r hr => ?bank, rfl, rfl, rfl, rfl, ?exxEnds, ?exxTwice⟩⟩
  case storedFlags => simp only [State.advance_flags, State.swapAf, hm, packFlags_unpackFlags_ext]
  case altF => simp only [State.advance_alt, State.swapAf, hm]
  case afOthers => rw [State.advance_reg]; exact s.swapAf_reg hr
  case afEnds => exact endsAt_advance_ext decidedExtCell_exAfAf hm rfl rfl rfl 1 4
  case afTwice => exact exec_exchange_twice exec_exAfAf (fun _ _ _ => rfl) (State.swapAf_swapAf hm)
  case bank => rw [State.advance_reg]; exact s.swapBank_reg hr
  case exxEnds => exact endsAt_advance_ext decidedExtCell_exx hm rfl rfl rfl 1 4
  case exxTwice => exact exec_exchange_twice exec_exx (fun _ _ _ => rfl) s.swapBank_swapBank

end Sys2Proof.Machine
end

section
/-! PROOFS. Construction, the one initialisation event (70_reset_and_hazards.md R196): it takes its arguments over field
by field, lists INIT_MEM in canonical form, and in BASE clears the EXT flags. -/

namespace Sys2Proof.Machine

section Construction

variable (p : Params) (pc : Word) (regs : InitRegs) (cells : List Host.Cell)

/-- In BASE the core is constructed with f3, f5 and fN clear (R16, D37). -/
theorem State.construct_flags_base (hm : p.mode = .base) :
    (State.construct p pc regs cells).flags = { regs.flags with f3 := false, f5 := false, fN := false } := by
  simp only [State.construct, hm]

/-- In EXT the core is constructed with the flags of INIT_REGS (R24). -/
theorem State.construct_flags_ext (hm : p.mode = .ext) : (State.construct p pc regs cells).flags = regs.flags := by
  simp only [State.construct, hm]

theorem State.construct_inv : (State.construct p pc regs cells).Inv := by
  refine ⟨Memory.wf_ofCells cells, fun hm => ?_⟩
  rw [State.construct_flags_base p pc regs cells hm]
  exact ⟨rfl, rfl, rfl⟩

/-- One more listed byte is one more write, after those of the other cells (R29). -/
theorem Memory.ofCells_concat (a : Nat) (v : Byte) :
    Memory.ofCells (cells ++ [(a, v)]) = (Memory.ofCells cells).write (BitVec.ofNat 16 a) v :=
  List.foldl_concat ..

/-- The five flags of the 8080 are those of INIT_REGS in both modes (R24). -/
theorem State.construct_flags_shared :
    let f := (State.construct p pc regs cells).flags
    f.fS = regs.flags.fS ∧ f.fZ = regs.flags.fZ ∧ f.fH = regs.flags.fH ∧ f.fP = regs.flags.fP ∧
      f.fC = regs.flags.fC := by
  cases hm : p.mode with
  | base => rw [State.construct_flags_base p pc regs cells hm]; exact ⟨rfl, rfl, rfl, rfl, rfl⟩
  | ext => rw [State.construct_flags_ext p pc regs cells hm]; exact ⟨rfl, rfl, rfl, rfl, rfl⟩

end Construction

/-- Settles O49: State.reset is a construction too. -/
theorem constructionMeetsInvariant : Obligations.ConstructionMeetsInvariant :=
  ⟨State.construct_inv, State.construct_inv resetParams resetPc resetRegs resetCells⟩

/-- Settles O60: the flags by the mode, memory by the last cell listed, every other field as it is written. -/
theorem constructionSetsEveryField : Obligations.ConstructionSetsEveryField := by
  intro p pc regs cells
  obtain ⟨fS, fZ, fH, fP, fC⟩ := State.construct_flags_shared p pc regs cells
  refine ⟨rfl, rfl, rfl, rfl, rfl, rfl, rfl, rfl, rfl, rfl, rfl, rfl, rfl, rfl, rfl, rfl, rfl, rfl, fS, fZ, fH, fP, fC,
    fun hm => ?base, State.construct_flags_ext p pc regs cells, fun a v => ⟨?listed, fun w hw => ?others⟩⟩
  case base =>
    obtain ⟨-, extFlags⟩ := State.construct_inv p pc regs cells
    exact extFlags hm
  case listed =>
    show (Memory.ofCells _).read _ = v
    rw [Memory.ofCells_concat, Memory.read_write_same]
  case others =>
    show (Memory.ofCells _).read w = (Memory.ofCells cells).read w
    rw [Memory.ofCells_concat, Memory.read_write_other _ v hw]

end Sys2Proof.Machine
end

section
/-! PROOFS. Decoding, from the bytes (30_encoding.md R50, R57, R58, R62): the bytes at the front of a sequence that
decodes are the encoding of what they decode to, so the two tables can differ only where the mode decides which
instructions there are. -/

namespace Sys2Proof

open Machine (wordOf loByte_wordOf hiByte_wordOf)

/-! ## The bytes of a cell -/

/-- An opcode byte and as many of the two bytes after it as make `n` (R51, R55). -/
def instrBytes (n : Nat) (op b1 b2 : Byte) : List Byte :=
  match n with
  | 3 => encodeWord op (wordOf b2 b1)
  | 2 => [op, b1]
  | _ => [op]

/-- The fields `xxyyyzzz` of an opcode byte (R52). -/
theorem byte_fields (op : Byte) : op = op.extractLsb' 6 2 ++ op.extractLsb' 3 3 ++ op.extractLsb' 0 3 := by
  revert op
  decide

/-- Every cell of either table encodes to its opcode and the operand bytes its length leaves room for (R52 to R62). -/
theorem encode_decodeOpcode (m : Mode) (op b1 b2 : Byte) :
    encode (decodeOpcode m op b1 b2) = instrBytes (instrLength m op) op b1 b2 := by
  rw [byte_fields op]
  generalize op.extractLsb' 6 2 = x
  generalize op.extractLsb' 3 3 = y
  generalize op.extractLsb' 0 3 = z
  obtain ⟨x⟩ := x
  obtain ⟨y⟩ := y
  obtain ⟨z⟩ := z
  fin_cases x <;> fin_cases y <;> fin_cases z <;> cases m <;> rfl

theorem opcode_decodeOpcode (m : Mode) (op b1 b2 : Byte) : (decodeOpcode m op b1 b2).opcode = op := by
  rw [Instr.opcode, encode_decodeOpcode]
  unfold instrBytes
  split <;> rfl

theorem instrLength_bounds (m : Mode) (op : Byte) : 1 ≤ instrLength m op ∧ instrLength m op ≤ 3 := by
  unfold instrLength
  cases m <;> split_ifs <;> decide

/-- Read off the front of a sequence that is long enough, these bytes are that front. -/
theorem instrBytes_eq_take {n : Nat} {op : Byte} {bs : List Byte} (hn : 1 ≤ n ∧ n ≤ 3) (hlen : n ≤ bs.length + 1) :
    instrBytes n op (bs.getD 0 0) (bs.getD 1 0) = (op :: bs).take n := by
  match n, bs with
  | 1, _ => rfl
  | 2, b :: _ => rfl
  | 3, b :: c :: _ =>
    show [op, Machine.loByte (wordOf c b), Machine.hiByte (wordOf c b)] = [op, b, c]
    rw [loByte_wordOf, hiByte_wordOf]
  | 0, _ | 2, [] | 3, [] | 3, [_] | _ + 4, _ => simp at hn hlen

/-- Decoding a sequence that is long enough: the instruction encodes to the front, and the rest is given back. -/
theorem decode_of_long {m : Mode} {op : Byte} {bs : List Byte} (h : instrLength m op ≤ bs.length + 1) :
    decode m (op :: bs)
        = .ok (decodeOpcode m op (bs.getD 0 0) (bs.getD 1 0), (op :: bs).drop (instrLength m op))
      ∧ encode (decodeOpcode m op (bs.getD 0 0) (bs.getD 1 0)) = (op :: bs).take (instrLength m op) := by
  have hn := instrLength_bounds m op
  refine ⟨?decodes, (encode_decodeOpcode ..).trans (instrBytes_eq_take hn h)⟩
  obtain ⟨k, hk⟩ := Nat.exists_eq_add_of_le' hn.1
  rw [decode, if_neg (Nat.not_lt.mpr h), hk, List.drop_succ_cons, Nat.add_sub_cancel]

/-- Decoding a sequence that ends too early (R60). -/
theorem decode_of_short {m : Mode} {op : Byte} {bs : List Byte} (h : bs.length + 1 < instrLength m op) :
    decode m (op :: bs) = .error .operandsMissing := by
  rw [decode, if_pos h]

/-- Settles O3: `decode_of_long` and `decode_of_short`. -/
theorem lengthFollowsOpcode : Obligations.LengthFollowsOpcode := fun _ _ _ =>
  ⟨fun h => ⟨_, decode_of_long h⟩, decode_of_short⟩

/-- Settles O2: what decodes is long enough, so it is its front and its rest. -/
theorem decodedBytesReencode : Obligations.DecodedBytesReencode := by
  intro m bs rest i h
  cases bs with
  | nil => cases h
  | cons op bs =>
    by_cases hlen : bs.length + 1 < instrLength m op
    · rw [decode_of_short hlen] at h
      cases h
    · obtain ⟨decodes, encodes⟩ := decode_of_long (Nat.not_lt.mp hlen)
      rw [decodes] at h
      cases h
      exact ⟨decodeOpcode_wf .., by rw [encodes, List.take_append_drop]⟩

/-! ## The cells in which the tables differ (R58) -/

/-- The opcodes of the twelve cells. -/
def modeCells : List Nat := [0x08, 0x10, 0x18, 0x20, 0x28, 0x30, 0x38, 0xCB, 0xD9, 0xDD, 0xED, 0xFD]

/-- An instruction of BASE whose opcode is none of the twelve is in EXT too: the others are the duplicates (R59). -/
theorem wf_ext_of_wf_base {i : Instr} (hw : i.wf .base = true) (hop : i.opcode.toNat ∉ modeCells) :
    i.wf .ext = true := by
  cases i with
  | jmpAlias w => exact absurd (show (0xCB : Byte).toNat ∈ modeCells by decide) hop
  | retAlias => exact absurd (by decide) hop
  | nopAlias k =>
    have cells : ∀ k : BitVec 3, k ≠ 0 → (0b00#2 ++ k ++ 0b000#3).toNat ∈ modeCells := by decide
    exact absurd (cells k (bne_iff_ne.mp hw)) hop
  | callAlias k w =>
    have cells : ∀ k : BitVec 2, k ≠ 0 → (0b11#2 ++ k ++ 0b1101#4).toNat ∈ modeCells := by decide
    exact absurd (cells k (bne_iff_ne.mp hw)) hop
  | exAfAf | exx | djnz | jr | jrCc | prefixCB | prefixDD | prefixED | prefixFD => cases hw
  | _ => rfl

/-- An instruction of both tables is in the same cell of both: in EXT too its encoding decodes to it. -/
theorem decodeOpcode_ext_of_wf {op b1 b2 : Byte} (hw : (decodeOpcode .base op b1 b2).wf .ext = true) :
    decodeOpcode .base op b1 b2 = decodeOpcode .ext op b1 b2 := by
  obtain ⟨-, encodes⟩ := decode_of_long (m := .base) (op := op) (bs := [b1, b2]) (instrLength_bounds ..).2
  have front := roundTrips hw ([op, b1, b2].drop (instrLength .base op))
  rw [show encode (decodeOpcode .base op b1 b2) = _ from encodes, List.take_append_drop] at front
  exact (decodeOpcode_of_decode front).symm

/-- Settles O4: the twelve cells differ with both operand bytes 0 already; outside them what BASE decodes is an
instruction of EXT. -/
theorem twelveCellsDiffer : Obligations.TwelveCellsDiffer := by
  refine fun op => ⟨fun same => ?differ, fun hop b1 b2 => ?agree⟩
  case differ =>
    have differ : ∀ op : Byte, decodeOpcode .base op 0 0 = decodeOpcode .ext op 0 0 → op.toNat ∉ modeCells := by decide
    exact differ op (same 0 0)
  case agree =>
    refine decodeOpcode_ext_of_wf (wf_ext_of_wf_base (decodeOpcode_wf ..) ?_)
    rwa [opcode_decodeOpcode]

/-- Settles O6: each word, byte by byte. -/
theorem specWordsDecode : Obligations.SpecWordsDecode := ⟨rfl, rfl, rfl, rfl, rfl, rfl, rfl, rfl, rfl, rfl⟩

end Sys2Proof
end

section
/-! PROOFS. Writes repeated and writes of two bytes (20_memory.md R34, R38, R39, R45). A bus write lays bytes over memory
that the parameters, the address and the byte offered decide, and memory does not, so laying them twice is laying them
once. -/

namespace Sys2Proof.Machine

/-! ## What a bus write lays over memory -/

/-- The byte that offering `v` at `a` puts at `w`, if it puts one there: the four cases of R31 to R34. -/
def busOverlay (p : Params) (a : Word) (v : Byte) (w : Word) : Option Byte :=
  if a < p.romBoundary then (if w = a then some v else none)
  else if inWindow p a = true then
    match (if strideOf a = 3 then ppiControl p v else none) with
    | some pat => if inWindow p w = true then some (patternByte pat (strideOf w)) else none
    | none =>
      match p.windowDataWrite with
      | .discard => none
      | .store => if w = a then some v else none
      | .storeReplicated => if inWindow p w = true ∧ strideOf w = strideOf a then some v else none
  else none

theorem getD_ite_some (c : Prop) [Decidable c] (v x : Byte) :
    (if c then some v else none).getD x = if c then v else x := by
  split <;> rfl

/-- A read after a bus write sees the byte laid there, else what was there. -/
theorem State.memRead_memWrite_overlay (s : State) (a w : Word) (v : Byte) :
    (s.memWrite a v).memRead w = (busOverlay s.cfg a v w).getD (s.memRead w) := by
  rw [State.memRead_memWrite, read_busWrite, busOverlay]
  split
  case isTrue => exact (getD_ite_some ..).symm
  case isFalse =>
    split
    case isFalse => rfl
    case isTrue =>
      cases (if strideOf a = 3 then ppiControl s.cfg v else none) with
      | some pat => exact (getD_ite_some ..).symm
      | none =>
        cases s.cfg.windowDataWrite with
        | discard => rfl
        | store => exact (getD_ite_some ..).symm
        | storeReplicated => exact (ite_and ..).symm.trans (getD_ite_some ..).symm

/-- The same write again reads the same everywhere (R45). -/
theorem State.memRead_memWrite_twice (s : State) (a w : Word) (v : Byte) :
    ((s.memWrite a v).memWrite a v).memRead w = (s.memWrite a v).memRead w := by
  simp only [State.memRead_memWrite_overlay, State.memWrite_cfg]
  cases busOverlay s.cfg a v w <;> rfl

/-- Settles O14: by `memRead_memWrite_twice`, and where memory is canonical because equal reads are equal data. -/
theorem repeatedWriteChangesNothing : Obligations.RepeatedWriteChangesNothing := by
  refine fun s a v => ⟨fun w => s.memRead_memWrite_twice a w v, fun hwf => ?sameData⟩
  case sameData =>
    have once := State.memWrite_wf hwf a v
    have same : ((s.memWrite a v).memWrite a v).mem = (s.memWrite a v).mem :=
      memoryEqualWhenReadsEqual _ _ (State.memWrite_wf once a v) once fun w => s.memRead_memWrite_twice a w v
    exact congrArg (fun m => { s with mem := m }) same

/-! ## The window (R34) -/

/-- Settles O12: the three policies of `memRead_memWrite_data`. -/
theorem windowDataWriteByPolicy : Obligations.WindowDataWriteByPolicy := by
  refine ⟨fun s a v ha hlo hhi hdata => ?policy, rfl⟩
  case policy =>
    have read := State.memRead_memWrite_data ha (inWindow_iff.mpr ⟨hlo, hhi⟩) (v := v)
      fun h3 => hdata.resolve_left fun h => h h3
    refine ⟨fun hp w => ?discard, fun hp => ?store, fun hp => ?replicate, changesOnly_memWrite s a v⟩
    case discard => rw [read, hp]
    case store =>
      rw [hp] at read
      exact ⟨(read a).trans (if_pos rfl), fun w hw => (read w).trans (if_neg hw)⟩
    case replicate =>
      rw [hp] at read
      simp only [inWindow_iff, and_assoc] at read
      exact ⟨fun w hl hh h4 => (read w).trans (if_pos ⟨hl, hh, h4⟩), fun w hw => (read w).trans (if_neg hw)⟩

/-! ## Words (R38, R39) -/

theorem State.memRead16_toNat (s : State) (a : Word) :
    (s.memRead16 a).toNat = (s.memRead a).toNat + 256 * (s.memRead (a + 1)).toNat := by
  rw [State.memRead16, wordOf_toNat, Nat.mul_comm, Nat.add_comm]

theorem word_succ_ne (a : Word) : a ≠ a + 1 := by bv_omega

/-- Two writes to RAM: the later one decides where they meet. -/
theorem State.memRead_memWrite_memWrite_ram {s : State} {a b : Word} (ha : a < s.cfg.romBoundary)
    (hb : b < s.cfg.romBoundary) (u v : Byte) (w : Word) :
    ((s.memWrite a u).memWrite b v).memRead w = if w = b then v else if w = a then u else s.memRead w := by
  rw [State.memRead_memWrite_ram (s := s.memWrite a u) hb, State.memRead_memWrite_ram ha]

/-- A word written to RAM: the low byte at the address, the high byte at the next. -/
theorem State.memRead_memWrite16_ram {s : State} {a : Word} (ha : a < s.cfg.romBoundary)
    (ha1 : a + 1 < s.cfg.romBoundary) (v w : Word) :
    (s.memWrite16 a v).memRead w = if w = a + 1 then hiByte v else if w = a then loByte v else s.memRead w :=
  State.memRead_memWrite_memWrite_ram ha ha1 _ _ w

/-- Settles O15: a word read in numbers, and a word written to RAM read at its two addresses and at others. -/
theorem wordsAreLittleEndian : Obligations.WordsAreLittleEndian := by
  refine ⟨State.memRead16_toNat, fun s => s.memRead16_toNat 0xFFFF, fun s a v ha ha1 => ?ram⟩
  case ram =>
    have read := State.memRead_memWrite16_ram ha ha1 v
    have low : (s.memWrite16 a v).memRead a = loByte v := by rw [read, if_neg (word_succ_ne a), if_pos rfl]
    have high : (s.memWrite16 a v).memRead (a + 1) = hiByte v := by rw [read, if_pos rfl]
    refine ⟨by rw [low, loByte_toNat], by rw [high, hiByte_toNat], ?word, fun w hw hw1 => ?others⟩
    case word => rw [State.memRead16, low, high, wordOf_halves]
    case others => rw [read, if_neg hw1, if_neg hw]

/-! ## The stack as memory (R160, R206) -/

/-- The addresses a pop reads after a push are those the push wrote. -/
theorem State.popValue_push16 (s : State) (v : Word) :
    (s.push16 v).popValue = wordOf ((s.push16 v).memRead (s.sp - 1)) ((s.push16 v).memRead (s.sp - 2)) := by
  have top : s.sp - 2 + 1 = s.sp - 1 := by bv_omega
  rw [State.popValue, State.push16_sp_eq, top]

/-- A pop takes back what a push took from SP, wherever it points. -/
theorem State.popped_push16_sp (s : State) (v : Word) : (s.push16 v).popped.sp = s.sp := by
  rw [State.popped_sp_eq, State.push16_sp_eq]
  bv_omega

/-- A push into RAM: the two bytes of the word, and memory as before elsewhere. -/
theorem State.memRead_push16_ram {s : State} (h1 : s.sp - 1 < s.cfg.romBoundary) (h2 : s.sp - 2 < s.cfg.romBoundary)
    (v w : Word) :
    (s.push16 v).memRead w
      = if w = s.sp - 2 then loByte v else if w = s.sp - 1 then hiByte v else s.memRead w := by
  rw [State.memRead_push16, State.memRead_memWrite_memWrite_ram h1 h2]

/-- Settles O40: the pop reads the two bytes the push wrote. -/
theorem stackRoundTripInRam : Obligations.StackRoundTripInRam := by
  intro s v h1 h2
  have read := State.memRead_push16_ram h1 h2 v
  have apart : s.sp - 1 ≠ s.sp - 2 := by bv_omega
  have value : (s.push16 v).popValue = v := by
    rw [State.popValue_push16, read, read, if_neg apart, if_pos rfl, if_pos rfl, wordOf_halves]
  have top := topOfStack_popValue (s.push16 v)
  rw [value] at top
  refine ⟨top, value, s.popped_push16_sp v, fun w hw1 hw2 => ?others⟩
  case others => rw [State.popped_memRead, read, if_neg hw2, if_neg hw1]

/-- Settles O41: neither byte is written, so the pop reads what the two addresses held. -/
theorem pushIntoRomIsLost : Obligations.PushIntoRomIsLost := by
  intro s v h1 h2 hw1 hw2
  have read : ∀ w, (s.push16 v).memRead w = s.memRead w := fun w => by
    rw [State.memRead_push16, State.memWrite_rom (s := s) h1 (Bool.eq_false_iff.mp hw1),
      State.memWrite_rom h2 (Bool.eq_false_iff.mp hw2)]
  refine ⟨read, ?value, s.popped_push16_sp v⟩
  case value => rw [State.popValue_push16, read, read, wordOf_toNat, Nat.mul_comm, Nat.add_comm]

end Sys2Proof.Machine
end

section
/-! PROOFS. The flag engine (41_alu_flag_engine.md): the half-carry tables (R76 to R78), the layout of F (R92, R93), the
condition field (R94), the two decimal adjusts side by side (R90, R91), and CMA, CMC and STC (44_logical_rotate.md R149
to R151). -/

namespace Sys2Proof.Machine

/-- Settles O17: ADD_HC and SUB_HB at the indices of a sum and of a difference. -/
theorem halfCarryTables : Obligations.HalfCarryTables := fun a b c => ⟨addHc_hcIndex_iff a b c, subHb_hcIndex_iff a b c⟩

/-! ## F (R92, R93) -/

/-- The bits of the packed byte of BASE, from bit 0 up: bit 1 is set, bits 3 and 5 are clear (D15). -/
theorem bitOf_packFlags_base (f : Flags) {k : Nat} (hk : k < 8) :
    bitOf (packFlags .base f) k = [f.fC, true, f.fP, false, f.fH, false, f.fZ, f.fS].getD k false := by
  rw [bitOf]
  interval_cases k <;> simp [packFlags, getElem_bitByte]

/-- In BASE unpacking restores the five flags that are packed and keeps the others. -/
theorem unpackFlags_packFlags_base (f : Flags) : unpackFlags .base f (packFlags .base f) = f := by
  have bit {k : Nat} (hk : k < 8) := bitOf_packFlags_base f hk
  rw [unpackFlags, bit (by decide : 0 < 8), bit (by decide : 2 < 8), bit (by decide : 4 < 8), bit (by decide : 6 < 8),
    bit (by decide : 7 < 8)]
  rfl

/-- In BASE a byte comes back with the three bits that hold no flag at their fixed values. -/
theorem packFlags_unpackFlags_base (f : Flags) (v : Byte) :
    packFlags .base (unpackFlags .base f v) = (v &&& 0xD5) ||| 0x02 := by
  refine BitVec.eq_of_getLsbD_eq fun k hk => (bitOf_packFlags_base _ hk).trans ?_
  rw [BitVec.getLsbD_or, BitVec.getLsbD_and]
  interval_cases k <;> simp [unpackFlags, bitOf]

/-- Settles O18: the layout of each mode bit by bit, and its round trips. -/
theorem packAndUnpackFlags : Obligations.PackAndUnpackFlags := by
  intro f v
  have base {k : Nat} (hk : k < 8) := bitOf_packFlags_base f hk
  have ext {k : Nat} (hk : k < 8) := bitOf_packFlags_ext f hk
  refine ⟨fun m => ?shared, ⟨base (k := 5) (by decide), base (k := 3) (by decide), base (k := 1) (by decide),
    ⟨rfl, rfl, rfl⟩, packFlags_unpackFlags_base f v⟩, ⟨ext (k := 5) (by decide), ext (k := 3) (by decide),
    ext (k := 1) (by decide), rfl, rfl, rfl, packFlags_unpackFlags_ext f v⟩⟩
  case shared =>
    cases m with
    | base =>
      exact ⟨base (k := 7) (by decide), base (k := 6) (by decide), base (k := 4) (by decide), base (k := 2) (by decide),
        base (k := 0) (by decide), unpackFlags_packFlags_base f, rfl, rfl, rfl, rfl, rfl⟩
    | ext =>
      exact ⟨ext (k := 7) (by decide), ext (k := 6) (by decide), ext (k := 4) (by decide), ext (k := 2) (by decide),
        ext (k := 0) (by decide), unpackFlags_packFlags_ext f f, rfl, rfl, rfl, rfl, rfl⟩

/-! ## Conditions (R94) -/

/-- Settles O19: the eight values of the field; of JR cc by `jrCondHolds_jrCondOf`. -/
theorem conditionField : Obligations.ConditionField := by
  refine ⟨fun f c => ?field, jrCondHolds_jrCondOf⟩
  case field =>
    obtain ⟨c⟩ := c
    fin_cases c <;> simp [condHolds, condOf]

/-! ## The two decimal adjusts (R90, R91, D13) -/

/-- Settles O31: with fN clear both add the same correction, and the low digit carries where it exceeds 9. -/
theorem decimalAdjustModesAgree : Obligations.DecimalAdjustModesAgree := by
  intro f a hN
  obtain ⟨baseSum, baseHalf, baseParity, -⟩ := daa8_base rfl f a
  obtain ⟨extSum, extHalf⟩ := daa8_ext_add (x := .z80) rfl hN a
  obtain ⟨extParity, -⟩ := daa8_z80 rfl f a
  obtain ⟨baseCarry, baseSign, baseZero, -⟩ := daa8_shared .base f a
  obtain ⟨extCarry, extSign, extZero, -⟩ := daa8_shared (.ext .z80) f a
  have sum : (daa8 (.ext .z80) f a).1 = (daa8 .base f a).1 := BitVec.eq_of_toNat_eq (extSum.trans baseSum.symm)
  have half : 9 < a.toNat % 16 ↔ 16 ≤ a.toNat % 16 + daaLow f a := by
    unfold daaLow
    split <;> omega
  rw [sum] at extSign extZero extParity
  exact ⟨sum, Bool.eq_iff_iff.mpr (extSign.trans baseSign.symm), Bool.eq_iff_iff.mpr (extZero.trans baseZero.symm),
    Bool.eq_iff_iff.mpr (extHalf.trans (half.trans baseHalf.symm)),
    Bool.eq_iff_iff.mpr (extParity.trans baseParity.symm), Bool.eq_iff_iff.mpr (extCarry.trans baseCarry.symm)⟩

/-! ## CMA, CMC and STC (R149 to R151) -/

/-- In BASE a function that writes fC alone keeps every other flag. -/
theorem isCarryFlags_base (f : Flags) (c h n : Bool) (v : Byte) : IsCarryFlags .base f { f with fC := c } c h n v :=
  ⟨rfl, rfl, rfl, rfl, rfl, rfl, rfl, rfl⟩

/-- In EXT it also writes, under the Z80 rules, fH, fN and the copies of bits 3 and 5. -/
theorem isCarryFlags_ext (x : ExtFlagRules) (op : AluOp) (f : Flags) (c h n : Bool) (v : Byte) :
    IsCarryFlags (.ext x) f (Flags.withDetailsKeepingP { f with fC := c } (extDetails x op f
      { fH := h, fP := f.fP, f3 := bitOf v 3, f5 := bitOf v 5, fN := n })) c h n v := by
  refine ⟨rfl, rfl, rfl, rfl, ?_⟩
  rintro rfl
  exact ⟨rfl, rfl, rfl, rfl⟩

theorem isCarryFlags_cmaFlags (m : FlagRules) (f : Flags) (a : Byte) :
    IsCarryFlags m f (cmaFlags m f a) f.fC true true (~~~a) := by
  cases m with
  | base => exact isCarryFlags_base f f.fC true true (~~~a)
  | ext x => exact isCarryFlags_ext x (.cma a) f f.fC true true (~~~a)

theorem isCarryFlags_cmcFlags (m : FlagRules) (f : Flags) (a : Byte) :
    IsCarryFlags m f (cmcFlags m f a) (!f.fC) f.fC false a := by
  cases m with
  | base => exact isCarryFlags_base f (!f.fC) f.fC false a
  | ext x => exact isCarryFlags_ext x (.cmc a) f (!f.fC) f.fC false a

theorem isCarryFlags_stcFlags (m : FlagRules) (f : Flags) (a : Byte) :
    IsCarryFlags m f (stcFlags m f a) true false false a := by
  cases m with
  | base => exact isCarryFlags_base f true false false a
  | ext x => exact isCarryFlags_ext x (.stc a) f true false false a

/-- Settles O34: CMA complements A, CMC and STC keep it, and each writes the flags of its function. -/
theorem complementAndCarryInstructions : Obligations.ComplementAndCarryInstructions := by
  refine fun s => ⟨?cma, ?cmc, ?stc⟩
  case cma =>
    exact ⟨_, rfl, BitVec.toNat_not, isCarryFlags_cmaFlags .., endsAt_advance decidedCells_cma rfl rfl rfl 1⟩
  case cmc => exact ⟨_, rfl, rfl, isCarryFlags_cmcFlags .., endsAt_advance decidedCells_cmc rfl rfl rfl 1⟩
  case stc => exact ⟨_, rfl, rfl, isCarryFlags_stcFlags .., endsAt_advance decidedCells_stc rfl rfl rfl 1⟩

end Sys2Proof.Machine
end

section
/-! PROOFS. The machine-control instructions (46_stack_io_control.md R169 to R172), the bytes R178 names in EXT
(47_extended_mode.md R178, 30_encoding.md R61), the duplicates of BASE (R59) and a halted core (R171, R74): each is the
end of an instruction, and at most the latches beside it. -/

namespace Sys2Proof.Machine

/-! ## EI, DI, HLT and NOP (R169 to R172) -/

/-- Writing both latches changes the latches. -/
theorem changesOnly_latches (s : State) (b : Bool) : ChangesOnly [.iff1, .iff2] s { s with iff1 := b, iff2 := b } := by
  intro p hp
  cases p with
  | iff1 => exact absurd (by decide) hp
  | iff2 => exact absurd (by decide) hp
  | mem => exact fun _ => rfl
  | portInput => exact ⟨rfl, rfl⟩
  | _ => rfl

/-- What may change before an instruction ends may change after its end, and nothing more. -/
theorem ChangesOnly.advance {ps : List Part} {s t : State} (h : ChangesOnly ps s t) (i : Instr) (len : Word) :
    ChangesOnly ps s (t.advance i len) := fun p hp =>
  Part.same_trans (h p hp) (changesOnly_advance t i len p List.not_mem_nil)

/-- Settles O43: EI and DI end after writing the latches, HLT where HALT_ADVANCES_PC says, NOP after its byte. -/
theorem machineControlInstructions : Obligations.MachineControlInstructions := by
  refine fun s => ⟨?ei, ?di, ?hlt, ?nop, fun k => ?nopAlias⟩
  case ei =>
    exact ⟨_, rfl, rfl, rfl, (changesOnly_latches s true).advance _ _, endsAt_advance decidedCells_ei rfl rfl rfl 1⟩
  case di =>
    exact ⟨_, rfl, rfl, rfl, (changesOnly_latches s false).advance _ _, endsAt_advance decidedCells_di rfl rfl rfl 1⟩
  case hlt =>
    by_cases h : s.cfg.haltAdvancesPc = true
    · rw [if_pos h]
      exact ⟨_, if_pos h, changesOnly_advance _ _ _, endsAt_advance decidedCells_hlt rfl rfl rfl 1⟩
    · have stays := endsAt_advance (s := s) decidedCells_hlt rfl rfl rfl 0
      rw [add_zero] at stays
      rw [if_neg h]
      exact ⟨_, if_neg h, changesOnly_advance _ _ _, stays⟩
  case nop => exact ⟨_, rfl, changesOnly_advance _ _ _, endsAt_advance decidedCells_nop rfl rfl rfl 1⟩
  case nopAlias =>
    exact ⟨_, rfl, changesOnly_advance _ _ _, rfl,
      fun hm => endsAt_advance_base (decidedBaseCell_nopAlias k) hm rfl rfl rfl 1 4⟩

/-! ## The four bytes 0xCB, 0xDD, 0xED and 0xFD in EXT (R61, R178) -/

/-- An instruction that only advances, at one of those four opcodes, pays PREFIX_TICKS. -/
theorem exec_prefix_cost {s : State} {i : Instr} (hm : s.cfg.mode = .ext)
    (hop : i.opcode.toNat ∈ [0xCB, 0xDD, 0xED, 0xFD]) (h : exec i s = .next (s.advance i 1)) :
    ∃ t, exec i s = .next t ∧ ChangesOnly [] s t ∧ t.pc = s.pc + 1 ∧ t.ticks = s.ticks + s.cfg.prefixTicks := by
  refine ⟨_, h, changesOnly_advance s i 1, rfl, ?cost⟩
  case cost => rw [State.advance_ticks, State.cost, if_pos rfl, tickEntry_prefix hm hop]

/-- Settles O46: each of the four is an `exec_prefix_cost`. -/
theorem prefixByteInstructions : Obligations.PrefixByteInstructions := by
  refine ⟨fun s hm => ⟨?CB, ?DD, ?ED, ?FD⟩, rfl⟩
  case CB => exact exec_prefix_cost hm (by decide) rfl
  case DD => exact exec_prefix_cost hm (by decide) rfl
  case ED => exact exec_prefix_cost hm (by decide) rfl
  case FD => exact exec_prefix_cost hm (by decide) rfl

/-- Settles O47: the step advances by one byte and leaves memory, so the next fetch reads one byte further on. -/
theorem prefixesDoNotCombine : Obligations.PrefixesDoNotCombine := by
  intro s hm hop
  have run : step s = .next (s.advance s.fetch 1) := by
    rw [step_eq, State.fetch_eq, hm]
    exact exec_prefixByte hop _ _ s
  have second : s.pc + 1 + 1 = s.pc + 2 := by bv_omega
  have third : s.pc + 1 + 2 = s.pc + 3 := by bv_omega
  refine ⟨_, run, changesOnly_advance s _ 1, rfl, ?next⟩
  case next =>
    rw [State.fetch_eq, State.advance_cfg, hm, State.advance_pc, second, third]
    rfl

/-! ## The duplicates of BASE (R59, R201) -/

/-- What `i` and its twin `j` have in common: the state they end in but for ticks, and in BASE at the decided tables that
too. -/
def ActAlike (s : State) (i j : Instr) : Prop :=
  ∃ t u, exec i s = .next t ∧ exec j s = .next u ∧ t = { u with ticks := t.ticks }
    ∧ (s.cfg.mode = .base → DecidedTicks s.cfg → t = u)

/-- Two opcodes with one cell of the decided TICKS_BASE cost the same in BASE. -/
theorem State.cost_eq_of_cell {s : State} {i j : Instr} {c : Nat × Nat} (hi : DecidedBaseCell i.opcode c)
    (hj : DecidedBaseCell j.opcode c) (hm : s.cfg.mode = .base) (h : DecidedTicks s.cfg) (taken : Bool) :
    s.cost i taken = s.cost j taken := by
  rw [State.cost_base h hm hi, State.cost_base h hm hj]

section Twins

variable {s t : State} {i j : Instr} {c : Nat × Nat} (hcfg : t.cfg = s.cfg) (hi : DecidedBaseCell i.opcode c)
  (hj : DecidedBaseCell j.opcode c)

include hcfg hi hj

theorem actAlike_advance (len : Word) (h : exec i s = .next (t.advance i len))
    (k : exec j s = .next (t.advance j len)) : ActAlike s i j := by
  refine ⟨_, _, h, k, rfl, fun hm ht => ?_⟩
  rw [← hcfg] at hm ht
  rw [State.advance, State.advance, State.cost_eq_of_cell hi hj hm ht]

theorem actAlike_jumpTo (target : Word) (h : exec i s = .next (t.jumpTo i target))
    (k : exec j s = .next (t.jumpTo j target)) : ActAlike s i j := by
  refine ⟨_, _, h, k, rfl, fun hm ht => ?_⟩
  rw [← hcfg] at hm ht
  rw [State.jumpTo, State.jumpTo, State.cost_eq_of_cell hi hj hm ht]

end Twins

/-- A register written with its own value. -/
theorem State.setReg_reg (s : State) (r : Reg) : s.setReg r (s.reg r) = s := by cases r <;> rfl

theorem decodeOpcode_nopAlias {k : BitVec 3} (hk : k ≠ 0) (b1 b2 : Byte) :
    decodeOpcode .base (BitVec.ofNat 8 (8 * k.toNat)) b1 b2 = .nopAlias k := by
  obtain ⟨k⟩ := k
  fin_cases k
  · exact absurd rfl hk
  all_goals rfl

/-- Settles O5: the cells of the duplicates, their lengths, each against its twin, and MOV r,r. -/
theorem duplicatesActAsTheirTwins : Obligations.DuplicatesActAsTheirTwins := by
  refine ⟨fun b1 b2 => ⟨fun k hk => decodeOpcode_nopAlias hk b1 b2, rfl, rfl, rfl, rfl, rfl⟩,
    fun k j w => ⟨rfl, rfl, rfl, rfl⟩, fun s => ⟨fun k => ?nop, fun w => ?jmp, ?ret, fun k w => ?call⟩,
    fun s r => ?movSame⟩
  case nop => exact actAlike_advance rfl (decidedBaseCell_nopAlias k) decidedCells_nop.1 1 rfl rfl
  case jmp => exact actAlike_jumpTo rfl (decidedBaseCell_jmpAlias w) (decidedCells_jmp w).1 w rfl rfl
  case ret => exact actAlike_jumpTo s.popped_cfg decidedBaseCell_retAlias decidedCells_ret.1 s.popValue rfl rfl
  case call =>
    exact actAlike_jumpTo (s.push16_cfg (s.pc + 3)) (decidedBaseCell_callAlias k w) (decidedCells_call w).1 w rfl rfl
  case movSame =>
    have run : exec (.movRR r r) s = .next (s.advance (.movRR r r) 1) :=
      congrArg (fun t : State => Host.Outcome.next (t.advance (.movRR r r) 1)) (s.setReg_reg r)
    exact ⟨_, run, changesOnly_advance _ _ _, endsAt_advance (decidedCells_movRR r r) rfl rfl rfl 1⟩

/-! ## A halted core (R171, R74) -/

/-- Where HALT_ADVANCES_PC is at its decided value, a step on HLT adds its ticks and does nothing else. -/
theorem step_halted {s : State} (hop : s.memRead s.pc = 0x76) (hadv : s.cfg.haltAdvancesPc = false) :
    step s = .next { s with ticks := s.ticks + (tickEntry s.cfg 0x76).1 } := by
  have fetched : s.fetch = .hlt := by
    rw [State.fetch_eq, hop]
    rfl
  have stays : s.advance .hlt 0 = { s with ticks := s.ticks + (tickEntry s.cfg 0x76).1 } := by
    rw [State.advance, add_zero]
    rfl
  rw [step_eq, fetched, ← stays]
  exact if_neg (Bool.eq_false_iff.mp hadv)

theorem tickEntry_hlt {p : Params} (h : DecidedTicks p) :
    (tickEntry p 0x76).1 = if p.mode = .base then 7 else 4 := by
  cases hm : p.mode with
  | base => rw [tickEntry_base h hm]; rfl
  | ext => rw [tickEntry_ext h hm (by decide)]; rfl

/-- Settles O58, by induction on the number of steps: after one the core is on the same HLT. -/
theorem haltRepeatsForever : Obligations.HaltRepeatsForever := by
  refine ⟨fun n s hop hadv => ⟨?run, tickEntry_hlt⟩, rfl⟩
  case run =>
    induction n generalizing s with
    | zero => rw [run_zero, Nat.zero_mul, Nat.add_zero]
    | succ n ih =>
      have total : s.ticks + (tickEntry s.cfg 0x76).1 + n * (tickEntry s.cfg 0x76).1
          = s.ticks + (n + 1) * (tickEntry s.cfg 0x76).1 := by ring
      rw [← total]
      exact (run_succ n (step_halted hop hadv)).trans (ih _ hop hadv)

end Sys2Proof.Machine
end

section
/-! PROOFS. The frame of every instruction (10_state.md R23, 41_alu_flag_engine.md R96): a meaning is a chain of
operations, so what it may change is what they may change together, and the tables of R23 and R96 list no more. -/

namespace Sys2Proof.Machine

/-! ## Chains and choices -/

/-- Two parts of a chain list what they change in either order. -/
theorem ChangesOnly.swap {ps qs : List Part} {s t : State} (h : ChangesOnly (ps ++ qs) s t) :
    ChangesOnly (qs ++ ps) s t :=
  h.mono List.perm_append_comm.subset

/-- A conditional instruction changes what the branch it takes may change. -/
theorem ChangesOnly.ite {c : Prop} [Decidable c] {ps qs : List Part} {s t u : State} (h : ChangesOnly ps s t)
    (k : ChangesOnly qs s u) : ChangesOnly (if c then ps else qs) s (if c then t else u) := by
  split
  · exact h
  · exact k

/-- The same where neither branch changes more than the other. -/
theorem ChangesOnly.ite_same {c : Prop} [Decidable c] {ps : List Part} {s t u : State} (h : ChangesOnly ps s t)
    (k : ChangesOnly ps s u) : ChangesOnly ps s (if c then t else u) := by
  split
  · exact h
  · exact k

/-- The registers and alternates that EXX exchanges. -/
theorem changesOnly_swapBank (s : State) :
    ChangesOnly [.reg .b, .reg .c, .reg .d, .reg .e, .reg .h, .reg .l, .altReg .b, .altReg .c, .altReg .d, .altReg .e,
      .altReg .h, .altReg .l] s s.swapBank := by
  intro p hp
  cases p with
  | reg r => cases r <;> first | rfl | exact absurd (by decide) hp
  | altReg r => cases r <;> first | rfl | exact absurd (by decide) hp
  | mem => exact fun _ => rfl
  | portInput => exact ⟨rfl, rfl⟩
  | _ => rfl

/-- A' and F' written. -/
theorem changesOnly_altAf (s : State) (a f : Byte) :
    ChangesOnly [.altReg .a, .altF] s { s with alt := { s.alt with a := a, f := f } } := by
  intro p hp
  cases p with
  | reg r => cases r <;> rfl
  | altReg r => cases r <;> first | rfl | exact absurd (by decide) hp
  | altF => exact absurd (by decide) hp
  | mem => exact fun _ => rfl
  | portInput => exact ⟨rfl, rfl⟩
  | _ => rfl

/-- A, the flags that unpacking writes, A' and F', which EX AF,AF' exchanges. -/
theorem changesOnly_swapAf (s : State) :
    ChangesOnly ([.reg .a, .altReg .a, .altF] ++ aluParts s.cfg.mode) s s.swapAf :=
  ((changesOnly_setAcc s (s.alt.a, unpackFlags s.cfg.mode s.flags s.alt.f) _ (unpackFlags_keeps _ _ _)).trans
    (changesOnly_altAf _ s.a (packFlags s.cfg.mode s.flags))).mono
      (List.cons_subset_cons _ List.perm_append_comm.subset)

/-! ## Every instruction -/

/-- The frame of every instruction, by the chain its meaning is. -/
theorem exec_changesOnly {i : Instr} {s t : State} (h : exec i s = .next t) :
    ChangesOnly (partsWritten s i ++ flagsWritten s.cfg.mode i) s t := by
  cases i with
  -- A and the flags of an ALU function.
  | addR | addM | adi | adcR | adcM | aci =>
    cases h; exact (changesOnly_setAcc _ _ _ (add8_keeps _ _ _ _ _)).advance _ _
  | subR | subM | sui | sbbR | sbbM | sbi =>
    cases h; exact (changesOnly_setAcc _ _ _ (sub8_keeps _ _ _ _ _)).advance _ _
  | anaR | anaM | ani | xraR | xraM | xri | oraR | oraM | ori =>
    cases h; exact (changesOnly_setAcc _ _ _ (logicFlags_keeps _ _ _ _ _ _)).advance _ _
  | rlc | rrc | ral | rar => cases h; exact (changesOnly_setAcc _ _ _ (rotateFlags_keeps _ _ _ _ _)).advance _ _
  | cma => cases h; exact (changesOnly_setAcc _ _ _ (cmaFlags_keeps _ _ _)).advance _ _
  | daa => cases h; exact (changesOnly_setAcc _ _ _ (daa8_keeps _ _ _)).advance _ _
  -- Flags alone.
  | cmpR | cmpM | cpi => cases h; exact (changesOnly_flags _ _ _ (cmp8_keeps _ _ _ _)).advance _ _
  | cmc => cases h; exact (changesOnly_flags _ _ _ (cmcFlags_keeps _ _ _)).advance _ _
  | stc => cases h; exact (changesOnly_flags _ _ _ (stcFlags_keeps _ _ _)).advance _ _
  -- Flags, and then a register, a pair or the byte at HL.
  | inrR =>
    cases h; exact ((changesOnly_flags _ _ _ (inc8_keeps _ _ _)).trans (changesOnly_setReg _ _ _)).swap.advance _ _
  | dcrR =>
    cases h; exact ((changesOnly_flags _ _ _ (dec8_keeps _ _ _)).trans (changesOnly_setReg _ _ _)).swap.advance _ _
  | inrM =>
    cases h; exact ((changesOnly_flags _ _ _ (inc8_keeps _ _ _)).trans (changesOnly_setMemHl _ _)).swap.advance _ _
  | dcrM =>
    cases h; exact ((changesOnly_flags _ _ _ (dec8_keeps _ _ _)).trans (changesOnly_setMemHl _ _)).swap.advance _ _
  | dad =>
    cases h
    exact ((changesOnly_flags _ _ _ (add16_keeps _ _ _ _)).trans (changesOnly_setPair _ .hl _)).swap.advance _ _
  -- No flag from here on, but for POP PSW and EX AF,AF'.
  | movRR | movRM | mviR | lda | ldax => cases h; exact (changesOnly_setReg _ _ _).advance _ _
  | movMR | mviM => cases h; exact (changesOnly_setMemHl _ _).advance _ _
  | sta | stax => cases h; exact (changesOnly_memWrite _ _ _).advance _ _
  | shld => cases h; exact (changesOnly_memWrite16 _ _ _).advance _ _
  | lxi | inx | dcx => cases h; exact (changesOnly_setPair _ _ _).trans (changesOnly_advance _ _ _)
  | sphl => cases h; exact (changesOnly_setPair _ .sp _).advance _ _
  | lhld => cases h; exact (changesOnly_setPair _ .hl _).advance _ _
  | xchg =>
    cases h; exact ((changesOnly_setPair _ .hl _).trans (changesOnly_setPair _ .de _)).swap.advance _ _
  | xthl =>
    cases h; exact ((changesOnly_memWrite16 _ _ _).trans (changesOnly_setPair _ .hl _)).swap.advance _ _
  | push | pushPsw => cases h; exact (changesOnly_push16 _ _).advance _ _
  | pop =>
    cases h
    exact ((changesOnly_popped _).trans (changesOnly_setStackPair _ _ _)).trans (changesOnly_advance _ _ _)
  | popPsw =>
    cases h
    exact ((changesOnly_popped _).trans (changesOnly_setAcc _ _ _ (unpackFlags_keeps _ _ _))).advance _ _
  | inPort => cases h; exact ((changesOnly_portReadDone _).trans (changesOnly_setReg _ .a _)).swap.advance _ _
  | outPort => cases h; exact (changesOnly_portWrite _ _ _).advance _ _
  | ei | di => cases h; exact (changesOnly_latches _ _).advance _ _
  | nop | nopAlias | prefixCB | prefixDD | prefixED | prefixFD => cases h; exact changesOnly_advance _ _ _
  | exAfAf => cases h; exact (changesOnly_swapAf _).advance _ _
  | exx => cases h; exact (changesOnly_swapBank _).advance _ _
  -- Transfers.
  | jmp | jmpAlias | pchl | jr => cases h; exact changesOnly_jumpTo _ _ _
  | call | callAlias | rst => cases h; exact (changesOnly_push16 _ _).trans (changesOnly_jumpTo _ _ _)
  | ret | retAlias => cases h; exact (changesOnly_popped _).trans (changesOnly_jumpTo _ _ _)
  -- Two outcomes.
  | jcc | jrCc => rw [← next_ite_inj h]; exact .ite_same (changesOnly_jumpTo _ _ _) (changesOnly_fallThrough _ _ _)
  | hlt => rw [← next_ite_inj h]; exact .ite_same (changesOnly_advance _ _ _) (changesOnly_advance _ _ _)
  | djnz =>
    rw [← next_ite_inj h]
    exact .ite_same ((changesOnly_setReg _ .b _).trans (changesOnly_fallThrough _ _ _))
      ((changesOnly_setReg _ .b _).trans (changesOnly_jumpTo _ _ _))
  | ccc cc =>
    rw [← next_ite_inj h]
    exact (ChangesOnly.ite ((changesOnly_push16 _ _).trans (changesOnly_jumpTo _ _ _))
      (changesOnly_fallThrough _ _ _)).trans (.refl _)
  | rcc cc =>
    rw [← next_ite_inj h]
    exact (ChangesOnly.ite ((changesOnly_popped _).trans (changesOnly_jumpTo _ _ _))
      (changesOnly_fallThrough _ _ _)).trans (.refl _)

/-- Settles O50: `exec_changesOnly`. -/
theorem instructionsChangeOnlyTheirParts : Obligations.InstructionsChangeOnlyTheirParts := fun _ _ _ => exec_changesOnly

end Sys2Proof.Machine
end

section
/-! PROOFS. The state most instructions never read (10_state.md R17 to R20, R27): IX, IY, I, R, the latches and the tick
parameters, which reach ticks alone (R68, R201, R202), the alternate bank, which only the exchanges of EXT read, and
EXT_FLAG_RULES, which only the ALU reads (R98). One simulation carries them through every instruction; the frame of R187,
the ticks of R68 and the non-interference of R27 follow from it. -/

namespace Sys2Proof

/-! ## What an instruction reads -/

/-- Whether an instruction exchanges registers with the alternate bank (R173, R174). -/
def Instr.exchanges : Instr → Bool
  | .exAfAf | .exx => true
  | _ => false

/-- Whether an instruction follows the flag rules of the mode: whether it calls a function of the ALU (R96, R98). -/
def Instr.followsRules : Instr → Bool
  | .addR _ | .addM | .adi _ | .adcR _ | .adcM | .aci _ | .subR _ | .subM | .sui _ | .sbbR _ | .sbbM | .sbi _
  | .anaR _ | .anaM | .ani _ | .xraR _ | .xraM | .xri _ | .oraR _ | .oraM | .ori _ | .cmpR _ | .cmpM | .cpi _
  | .inrR _ | .inrM | .dcrR _ | .dcrM | .dad _ | .daa | .rlc | .rrc | .ral | .rar | .cma | .cmc | .stc => true
  | _ => false

/-- A latch after an instruction: EI sets it, DI clears it (R169, R170). -/
def Instr.latchAfter (b : Bool) : Instr → Bool
  | .ei => true
  | .di => false
  | _ => b

/-- Neither exchange is in the table of BASE (R58). -/
theorem Instr.exchanges_of_wf_base {i : Instr} (hw : i.wf .base = true) : i.exchanges = false := by
  cases i with
  | exAfAf | exx => cases hw
  | _ => rfl

/-- An instruction at neither opcode is neither EI nor DI. -/
theorem Instr.latchAfter_of_opcode {i : Instr} (hei : i.opcode.toNat ≠ 0xFB) (hdi : i.opcode.toNat ≠ 0xF3) (b : Bool) :
    i.latchAfter b = b := by
  cases i with
  | ei => exact absurd rfl hei
  | di => exact absurd rfl hdi
  | _ => rfl

end Sys2Proof

namespace Sys2Proof.Machine

/-! ## The unseen part of the state -/

/-- The values of the alternate bank, IX, IY, I, R, the latches, the tick parameters and EXT_FLAG_RULES. -/
structure Unseen where
  alt : AltBank
  ix : Word
  iy : Word
  iReg : Byte
  rReg : Byte
  iff1 : Bool
  iff2 : Bool
  ticksBase : TickTable
  ticksExt : TickTable
  prefixTicks : Nat
  extFlagRules : ExtFlagRules

def State.unseen (s : State) : Unseen where
  alt := s.alt
  ix := s.ix
  iy := s.iy
  iReg := s.iReg
  rReg := s.rReg
  iff1 := s.iff1
  iff2 := s.iff2
  ticksBase := s.cfg.ticksBase
  ticksExt := s.cfg.ticksExt
  prefixTicks := s.cfg.prefixTicks
  extFlagRules := s.cfg.extFlagRules

def State.withUnseen (s : State) (x : Unseen) : State :=
  { s with
    alt := x.alt
    ix := x.ix
    iy := x.iy
    iReg := x.iReg
    rReg := x.rReg
    iff1 := x.iff1
    iff2 := x.iff2
    cfg := { s.cfg with
      ticksBase := x.ticksBase
      ticksExt := x.ticksExt
      prefixTicks := x.prefixTicks
      extFlagRules := x.extFlagRules } }

/-- The unseen part after an instruction that ends in `t`: the latches by EI and DI, the alternate bank by the
exchanges. -/
def Unseen.after (x : Unseen) (i : Instr) (t : State) : Unseen :=
  { x with
    alt := if i.exchanges then t.alt else x.alt
    iff1 := i.latchAfter x.iff1
    iff2 := i.latchAfter x.iff2 }

/-! ## The simulation -/

/-- What `i` ends in from `s` under the unseen part `x`, where it ends in `t` under that of `s`. -/
def State.carried (s : State) (x : Unseen) (i : Instr) (taken : Bool) (t : State) : State :=
  { t.withUnseen (x.after i t) with ticks := s.ticks + (s.withUnseen x).cost i taken }

/-- Two runs of a conditional instruction that take the same branch. -/
theorem ite_next_carried {c : Bool} {a b a' b' t : State} {F : Bool → State → State}
    (h : (if c then .next a else .next b : Host.Outcome State Fault Refusal) = .next t) (ha : a' = F true a)
    (hb : b' = F false b) : (if c then .next a' else .next b' : Host.Outcome State Fault Refusal) = .next (F c t) := by
  cases c <;> cases h
  · exact congrArg Host.Outcome.next hb
  · exact congrArg Host.Outcome.next ha

theorem Unseen.with_alt {x : Unseen} {alt : AltBank} (h : x.alt = alt) : { x with alt := alt } = x := by rw [← h]

theorem Unseen.with_extFlagRules {x : Unseen} {rules : ExtFlagRules} (h : x.extFlagRules = rules) :
    { x with extFlagRules := rules } = x := by rw [← h]

/-- DJNZ jumps unless B counts down to 0 (R175). -/
theorem branchTaken_djnz (s : State) (d : Byte) : branchTaken s (.djnz d) = !decide (s.b - 1 = 0) := by
  have counted : s.b - 1 = 0 ↔ s.b = 1 := by bv_omega
  simp only [branchTaken, counted]
  rfl

/-- Every instruction carries the unseen part through, an exchange where both runs have the same alternate bank, a function
of the ALU where they have the same flag rules: the run under `x` ends as the other one does, but for what
`Unseen.after` says of `x` and for the ticks of `x`'s tables. -/
theorem exec_withUnseen {i : Instr} {s t : State} (h : exec i s = .next t) {x : Unseen}
    (hx : i.exchanges = true → x.alt = s.alt)
    (hr : i.followsRules = true → x.extFlagRules = s.cfg.extFlagRules) :
    exec i (s.withUnseen x) = .next (s.carried x i (branchTaken s i) t) := by
  cases i with
  -- A register or a pair is written: one operand at a time.
  | movRR r | movRM r | mviR r => cases h; cases r <;> rfl
  | lxi p | inx p | dcx p => cases h; cases p <;> rfl
  | pop p => cases h; cases p <;> rfl
  -- The port input is read: one answer is listed, or none.
  | inPort v =>
    obtain ⟨answers, hs⟩ : ∃ answers, s = { s with portAnswers := answers } := ⟨s.portAnswers, rfl⟩
    rw [hs] at h ⊢
    cases answers <;> cases h <;> rfl
  -- Two outcomes.
  | jcc | ccc | rcc | jrCc => exact ite_next_carried (F := s.carried x _) h rfl rfl
  | hlt => exact ite_next_carried (F := fun _ => s.carried x _ true) h rfl rfl
  | djnz d =>
    rw [branchTaken_djnz]
    by_cases hb : s.b - 1 = 0
    · cases (if_pos hb).symm.trans h
      rw [decide_eq_true hb]
      exact if_pos hb
    · cases (if_neg hb).symm.trans h
      rw [decide_eq_false hb]
      exact if_neg hb
  -- The alternate bank is read.
  | exAfAf | exx => rw [← Unseen.with_alt (hx rfl)]; cases h; rfl
  -- The flag rules are read.
  | inrR r | dcrR r => rw [← Unseen.with_extFlagRules (hr rfl)]; cases h; cases r <;> rfl
  | addR | addM | adi | adcR | adcM | aci | subR | subM | sui | sbbR | sbbM | sbi | anaR | anaM | ani | xraR | xraM | xri
  | oraR | oraM | ori | cmpR | cmpM | cpi | inrM | dcrM | dad | daa | rlc | rrc | ral | rar | cma | cmc | stc =>
    rw [← Unseen.with_extFlagRules (hr rfl)]; cases h; rfl
  | _ => cases h; rfl

/-! ## What follows for the unseen part -/

/-- Under its own unseen part a state is itself, so an instruction changes that part as `Unseen.after` says, and adds
its cost. -/
theorem exec_unseen_ticks {i : Instr} {s t : State} (h : exec i s = .next t) :
    s.unseen.after i t = t.unseen ∧ t.ticks = s.ticks + s.cost i (branchTaken s i) := by
  have carried : t = s.carried s.unseen i (branchTaken s i) t :=
    next_inj (h.symm.trans (exec_withUnseen (x := s.unseen) h (fun _ => rfl) fun _ => rfl))
  exact ⟨(congrArg State.unseen carried).symm, congrArg State.ticks carried⟩

/-- Each instruction pays the entry of its opcode (R68). -/
theorem exec_ticks {i : Instr} {s t : State} (h : exec i s = .next t) :
    t.ticks = s.ticks + s.cost i (branchTaken s i) := (exec_unseen_ticks h).2

theorem State.fetch_exchanges_base {s : State} (hm : s.cfg.mode = .base) : s.fetch.exchanges = false :=
  Instr.exchanges_of_wf_base (hm ▸ decodeOpcode_wf s.cfg.mode _ _ _)

/-- The opcode of the fetched instruction is the byte at PC. -/
theorem State.fetch_opcode (s : State) : s.fetch.opcode = s.memRead s.pc := opcode_decodeOpcode ..

/-- Settles O53: the parameters by `exec_sameModeFlags`, the rest by `Unseen.after`, whose latches only EI and DI write
and whose alternate bank only the exchanges of EXT write. -/
theorem unreachedStateIsFixed : Obligations.UnreachedStateIsFixed := by
  intro s t h
  obtain ⟨hcfg, -⟩ := exec_sameModeFlags (step_eq s ▸ h)
  obtain ⟨after, -⟩ := exec_unseen_ticks (step_eq s ▸ h)
  refine ⟨hcfg, (congrArg Unseen.ix after).symm, (congrArg Unseen.iy after).symm, (congrArg Unseen.iReg after).symm,
    (congrArg Unseen.rReg after).symm, fun hm => ?bank, fun hei hdi => ?latches⟩
  case bank =>
    have alt := congrArg Unseen.alt after
    rw [Unseen.after, State.fetch_exchanges_base hm] at alt
    exact alt.symm
  case latches =>
    have latch := Instr.latchAfter_of_opcode (s.fetch_opcode ▸ hei) (s.fetch_opcode ▸ hdi)
    exact ⟨(congrArg Unseen.iff1 after).symm.trans (latch s.iff1),
      (congrArg Unseen.iff2 after).symm.trans (latch s.iff2)⟩

/-- Under an unseen part `x` at which it costs the same, an instruction ends as it does otherwise, but for what it makes
of `x`. -/
theorem exec_withUnseen_same_cost {i : Instr} {s t : State} (h : exec i s = .next t) {x y : Unseen}
    (hx : i.exchanges = true → x.alt = s.alt)
    (hr : i.followsRules = true → x.extFlagRules = s.cfg.extFlagRules)
    (hcost : ∀ taken, (s.withUnseen x).cost i taken = s.cost i taken) (after : x.after i t = y) :
    exec i (s.withUnseen x) = .next (t.withUnseen y) := by
  rw [exec_withUnseen h hx hr, State.carried, hcost, ← exec_ticks h, after]
  rfl

/-- Settles O57: a step under other registers and latches, and in BASE under another alternate bank, which nothing there
exchanges. -/
theorem unobservableStateDoesNotInterfere : Obligations.UnobservableStateDoesNotInterfere := by
  intro s t h
  obtain ⟨after, -⟩ := exec_unseen_ticks (step_eq s ▸ h)
  refine ⟨fun ix iy i r f1 f2 => ?registers, fun hm alt => ?bank⟩
  case registers =>
    exact ⟨_, exec_withUnseen_same_cost h
      (x := { s.unseen with ix := ix, iy := iy, iReg := i, rReg := r, iff1 := f1, iff2 := f2 })
      (y := { t.unseen with ix := ix, iy := iy, iReg := i, rReg := r, iff1 := s.fetch.latchAfter f1,
                            iff2 := s.fetch.latchAfter f2 })
      (fun _ => rfl) (fun _ => rfl) (fun _ => rfl) (by rw [← after]; rfl), rfl⟩
  case bank =>
    have noExchange := State.fetch_exchanges_base hm
    exact ⟨_, exec_withUnseen_same_cost h (x := { s.unseen with alt := alt }) (y := { t.unseen with alt := alt })
      (fun he => absurd he (Bool.eq_false_iff.mp noExchange)) (fun _ => rfl) (fun _ => rfl)
      (by rw [← after, Unseen.after, Unseen.after, noExchange]; rfl), rfl⟩

/-! ## Ticks (R68, R201 to R203) -/

/-- Settles O54: `exec_ticks`, and the opcode of the fetched instruction is the byte at PC. -/
theorem ticksFollowTheTables : Obligations.TicksFollowTheTables := by
  refine ⟨fun i s t h => exec_ticks h, fun s t h => ?step, rfl, rfl⟩
  case step =>
    rw [← s.fetch_opcode]
    exact exec_ticks (step_eq s ▸ h)

/-- No cell of the decided TICKS_BASE is below 4 (C18). -/
theorem four_le_decidedTicksBase (op : Byte) (taken : Bool) : 4 ≤ pickCost taken (tickCell decidedTicksBase op) := by
  revert op taken
  decide

/-- No cell of the decided TICKS_EXT is, but those of the four bytes R178 names (C18). -/
theorem four_le_decidedTicksExt {op : Byte} (hop : op.toNat ∉ [0xCB, 0xDD, 0xED, 0xFD]) (taken : Bool) :
    4 ≤ pickCost taken (tickCell decidedTicksExt op) := by
  revert op taken
  decide

/-- Settles O55: a step adds its cost, which at the decided tables is a cell's. -/
theorem ticksNeverDecrease : Obligations.TicksNeverDecrease := by
  intro s t h
  have paid := exec_ticks (step_eq s ▸ h)
  rw [paid]
  refine ⟨Nat.le_add_right .., fun ht hm => ?base, fun ht hm hop => ?ext⟩
  case base =>
    rw [State.cost_base ht hm rfl]
    exact Nat.add_le_add_left (four_le_decidedTicksBase ..) _
  case ext =>
    rw [← s.fetch_opcode] at hop
    rw [State.cost_ext ht hm ⟨hop, rfl⟩]
    exact Nat.add_le_add_left (four_le_decidedTicksExt hop _) _

end Sys2Proof.Machine
end

section
/-! PROOFS. What the tick parameters and EXT_FLAG_RULES reach (41_alu_flag_engine.md R91, R98; 70_reset_and_hazards.md
R201; D12, D13). The tick parameters are carried through as unseen. EXT_FLAG_RULES is too, but by the ALU, whose
functions give the same byte, fC, fS and fZ under every set, DAA after a subtraction apart. -/

namespace Sys2Proof.Machine

/-! ## The flag rules of another set -/

/-- Two results of an ALU function that differ at most in the flags a set of EXT rules decides. -/
def AgreeButDetails {α : Type} (y z : α × Flags) : Prop :=
  z.1 = y.1 ∧ z.2.fC = y.2.fC ∧ z.2.fS = y.2.fS ∧ z.2.fZ = y.2.fZ

/-- What holds between a function's results under any two sets holds between those of two cores of one mode, in BASE
because they are one result. -/
theorem rel_of_rules {β : Type} {R : β → β → Prop} (refl : ∀ y, R y y) {F : FlagRules → β}
    (hF : ∀ x y, R (F (.ext x)) (F (.ext y))) {p q : Params} (hq : q.mode = p.mode) :
    R (F p.flagRules) (F q.flagRules) := by
  cases hm : p.mode with
  | base => rw [flagRules_base hm, flagRules_base (hq.trans hm)]; exact refl _
  | ext => rw [flagRules_ext hm, flagRules_ext (hq.trans hm)]; exact hF _ _

/-- In BASE another set of EXT rules is the same flag rules (R98). -/
theorem flagRules_eq_of_base {p q : Params} (hq : q.mode = p.mode) (hm : p.mode = .base) :
    q.flagRules = p.flagRules := by
  rw [flagRules_base hm, flagRules_base (hq.trans hm)]

/-- The state under another EXT_FLAG_RULES. -/
def State.withRules (s : State) (x : ExtFlagRules) : State := { s with cfg := { s.cfg with extFlagRules := x } }

/-- What EXT_FLAG_RULES reaches of an instruction that ends in `t`: A and some flags, in BASE nothing. -/
def RulesReach (i : Instr) (s t : State) (x : ExtFlagRules) : Prop :=
  ∃ u, exec i (s.withRules x) = .next u
    ∧ u = { t with cfg := { t.cfg with extFlagRules := x }, a := u.a, flags := u.flags }
    ∧ u.flags.fC = t.flags.fC
    ∧ (¬ (i = .daa ∧ s.flags.fN = true) → u.a = t.a ∧ u.flags.fS = t.flags.fS ∧ u.flags.fZ = t.flags.fZ)
    ∧ (s.cfg.mode = .base → u.a = t.a ∧ u.flags = t.flags)

section Reach

variable {i : Instr} {s t : State} {x : ExtFlagRules}

/-- An instruction that does not call the ALU ends in the same state. -/
theorem RulesReach.of_not_followsRules (hi : i.followsRules = false) (h : exec i s = .next t) :
    RulesReach i s t x := by
  obtain ⟨after, -⟩ := exec_unseen_ticks h
  have run : exec i (s.withRules x) = .next (t.withRules x) :=
    exec_withUnseen_same_cost (x := { s.unseen with extFlagRules := x }) (y := { t.unseen with extFlagRules := x }) h
      (fun _ => rfl) (fun hr => absurd hr (Bool.eq_false_iff.mp hi)) (fun _ => rfl) (by rw [← after]; rfl)
  exact ⟨_, run, rfl, rfl, fun _ => ⟨rfl, rfl, rfl⟩, fun _ => ⟨rfl, rfl⟩⟩

/-- An instruction that puts the result and the flags of an ALU function `F` where `K` puts them. -/
theorem RulesReach.of_alu {α : Type} {F : FlagRules → α × Flags} {K : State → α × Flags → State}
    (hK : ∀ v f g, K (s.withRules x) (v, g) = { (K s (v, f)).withRules x with flags := g })
    (hflags : ∀ y, (K s y).flags = y.2) (hs : exec i s = .next (K s (F s.cfg.flagRules)))
    (hx : exec i (s.withRules x) = .next (K (s.withRules x) (F (s.withRules x).cfg.flagRules)))
    (h : exec i s = .next t)
    (hF : ∀ x y, AgreeButDetails (F (.ext x)) (F (.ext y)) := by exact fun _ _ => ⟨rfl, rfl, rfl, rfl⟩) :
    RulesReach i s t x := by
  obtain rfl := next_inj (hs.symm.trans h)
  obtain ⟨byte, fC, fS, fZ⟩ := rel_of_rules (R := AgreeButDetails) (fun _ => ⟨rfl, rfl, rfl, rfl⟩) hF
    (p := s.cfg) (q := (s.withRules x).cfg) rfl
  have base : s.cfg.mode = .base → F (s.withRules x).cfg.flagRules = F s.cfg.flagRules := fun hm =>
    congrArg F (flagRules_eq_of_base rfl hm)
  generalize F s.cfg.flagRules = y at *
  generalize F (s.withRules x).cfg.flagRules = z at *
  have result : K (s.withRules x) z = { (K s y).withRules x with flags := z.2 } := by
    rw [← hK y.1 y.2 z.2, ← byte]
  refine ⟨_, hx.trans (congrArg _ result), rfl, ?_, fun _ => ⟨rfl, ?_, ?_⟩, fun hm => ⟨rfl, ?_⟩⟩
  all_goals rw [hflags]
  · exact fC
  · exact fS
  · exact fZ
  · exact congrArg Prod.snd (base hm)

/-- An instruction that writes the byte to A. -/
theorem RulesReach.of_acc {F : FlagRules → Byte × Flags} {len : Word}
    (hs : exec i s = .next ((s.setAcc (F s.cfg.flagRules)).advance i len))
    (hx : exec i (s.withRules x)
      = .next (((s.withRules x).setAcc (F (s.withRules x).cfg.flagRules)).advance i len))
    (h : exec i s = .next t)
    (hF : ∀ x y, AgreeButDetails (F (.ext x)) (F (.ext y)) := by exact fun _ _ => ⟨rfl, rfl, rfl, rfl⟩) :
    RulesReach i s t x :=
  .of_alu (K := fun u y => (u.setAcc y).advance i len) (fun _ _ _ => rfl) (fun _ => rfl) hs hx h hF

/-- INR and DCR of a register. -/
theorem RulesReach.of_setReg {F : FlagRules → Byte × Flags} {r : Reg}
    (hs : exec i s = .next ((State.setReg { s with flags := (F s.cfg.flagRules).2 } r
      (F s.cfg.flagRules).1).advance i 1))
    (hx : exec i (s.withRules x) = .next ((State.setReg { s.withRules x with
      flags := (F (s.withRules x).cfg.flagRules).2 } r (F (s.withRules x).cfg.flagRules).1).advance i 1))
    (h : exec i s = .next t)
    (hF : ∀ x y, AgreeButDetails (F (.ext x)) (F (.ext y)) := by exact fun _ _ => ⟨rfl, rfl, rfl, rfl⟩) :
    RulesReach i s t x :=
  .of_alu (K := fun u y => (State.setReg { u with flags := y.2 } r y.1).advance i 1)
    (fun _ _ _ => by cases r <;> rfl) (fun _ => State.setReg_flags _ _ _) hs hx h hF

/-- DAA: fC comes from A and the flags before it; with fN clear so does the byte, and with it fS and fZ. -/
theorem RulesReach.of_daa (h : exec .daa s = .next t) : RulesReach .daa s t x := by
  cases h
  have hm' : (s.withRules x).cfg.mode = s.cfg.mode := rfl
  obtain ⟨fC, fS, fZ, -⟩ := daa8_shared s.cfg.flagRules s.flags s.a
  obtain ⟨fC', fS', fZ', -⟩ := daa8_shared (s.withRules x).cfg.flagRules s.flags s.a
  refine ⟨_, rfl, rfl, Bool.eq_iff_iff.mpr (fC'.trans fC.symm), fun hN => ?afterAdd, fun hm => ?base⟩
  case afterAdd =>
    have clear : s.flags.fN = false := Bool.eq_false_iff.mpr fun hfN => hN ⟨rfl, hfN⟩
    have byte := rel_of_rules (R := fun y z => z.1 = y.1) (fun _ => rfl) (F := fun m => daa8 m s.flags s.a)
      (fun x y => by
        show (daaExt y _ _).1 = (daaExt x _ _).1
        rw [daaExt_fst, daaExt_fst, clear]
        rfl) hm'
    rw [byte] at fS' fZ'
    exact ⟨byte, Bool.eq_iff_iff.mpr (fS'.trans fS.symm), Bool.eq_iff_iff.mpr (fZ'.trans fZ.symm)⟩
  case base =>
    have same := congrArg (fun m => daa8 m s.flags s.a) (flagRules_eq_of_base hm' hm)
    exact ⟨congrArg Prod.fst same, congrArg Prod.snd same⟩

end Reach

/-! ## Every instruction -/

/-- What EXT_FLAG_RULES reaches of any instruction, by the ALU function it calls, if it calls one. -/
theorem exec_rulesReach {i : Instr} {s t : State} (h : exec i s = .next t) (x : ExtFlagRules) : RulesReach i s t x := by
  cases i with
  | addR | addM | adi | adcR | adcM | aci => exact .of_acc (F := fun m => add8 m _ _ _ _) rfl rfl h
  | subR | subM | sui | sbbR | sbbM | sbi => exact .of_acc (F := fun m => sub8 m _ _ _ _) rfl rfl h
  | anaR | anaM | ani => exact .of_acc (F := fun m => and8 m _ _ _) rfl rfl h
  | xraR | xraM | xri => exact .of_acc (F := fun m => xor8 m _ _ _) rfl rfl h
  | oraR | oraM | ori => exact .of_acc (F := fun m => or8 m _ _ _) rfl rfl h
  | cmpR | cmpM | cpi => exact .of_acc (F := fun m => (s.a, cmp8 m _ _ _)) rfl rfl h
  | rlc => exact .of_acc (F := fun m => rlc8 m _ _) rfl rfl h
  | rrc => exact .of_acc (F := fun m => rrc8 m _ _) rfl rfl h
  | ral => exact .of_acc (F := fun m => ral8 m _ _) rfl rfl h
  | rar => exact .of_acc (F := fun m => rar8 m _ _) rfl rfl h
  | cma => exact .of_acc (F := fun m => (~~~s.a, cmaFlags m _ _)) rfl rfl h
  | cmc => exact .of_acc (F := fun m => (s.a, cmcFlags m _ _)) rfl rfl h
  | stc => exact .of_acc (F := fun m => (s.a, stcFlags m _ _)) rfl rfl h
  | daa => exact .of_daa h
  | inrR r => exact .of_setReg (F := fun m => inc8 m s.flags (s.reg r)) rfl rfl h
  | dcrR r => exact .of_setReg (F := fun m => dec8 m s.flags (s.reg r)) rfl rfl h
  | inrM =>
    exact .of_alu (F := fun m => inc8 m s.flags s.memHl)
      (K := fun u y => (State.setMemHl { u with flags := y.2 } y.1).advance .inrM 1)
      (fun _ _ _ => rfl) (fun _ => rfl) rfl rfl h
  | dcrM =>
    exact .of_alu (F := fun m => dec8 m s.flags s.memHl)
      (K := fun u y => (State.setMemHl { u with flags := y.2 } y.1).advance .dcrM 1)
      (fun _ _ _ => rfl) (fun _ => rfl) rfl rfl h
  | dad p =>
    exact .of_alu (F := fun m => add16 m s.flags s.hl (s.pair p))
      (K := fun u y => (State.setHl { u with flags := y.2 } y.1).advance (.dad p) 1)
      (fun _ _ _ => rfl) (fun _ => rfl) rfl rfl h
  | _ => exact .of_not_followsRules rfl h

/-- A step under other tick parameters, carried through as unseen, pays other ticks and does the same. -/
theorem step_withTicks {s t : State} (h : step s = .next t) (base ext : TickTable) (pre : Nat) :
    ∃ n, step (s.withUnseen { s.unseen with ticksBase := base, ticksExt := ext, prefixTicks := pre })
      = .next { t.withUnseen { t.unseen with ticksBase := base, ticksExt := ext, prefixTicks := pre } with
          ticks := n } := by
  obtain ⟨after, -⟩ := exec_unseen_ticks (step_eq s ▸ h)
  rw [← after]
  exact ⟨_, exec_withUnseen h (fun _ => rfl) fun _ => rfl⟩

/-- Settles O56: the tick parameters by `step_withTicks`, EXT_FLAG_RULES by `exec_rulesReach`. -/
theorem parametersTouchTheirOwnEffect : Obligations.ParametersTouchTheirOwnEffect :=
  ⟨fun _ _ h base ext pre => step_withTicks h base ext pre, fun _ _ _ h x => exec_rulesReach h x⟩

end Sys2Proof.Machine
end
